-- ==== Sys2Proof/Word.lean ====
section
/-! DEFINITION. The words the block moves (20_memory.md R86): 128-bit command and event words, the 32-bit status
word, 32-bit microsecond values, bytes, and line levels. All are unsigned and bit 0 is the least significant
(00_scope.md R16, R17). -/

namespace Sys2Proof

/-- A command word of the command port (30_encoding.md R100). -/
abbrev CommandWord := BitVec 128

/-- An event word of the output event stream (30_encoding.md R120). -/
abbrev EventWord := BitVec 128

/-- The status word (30_encoding.md R131). -/
abbrev StatusWord := BitVec 32

/-- One byte of a word carried over a narrow bus (20_memory.md R85). -/
abbrev Byte := BitVec 8

/-- A microsecond value or timestamp, `TIME_BITS` = 32 bits wide (00_scope.md R11, D13). -/
abbrev Micros := BitVec 32

/-- A level of the signal line: `true` is high, a bit value 1 (30_encoding.md R140). -/
abbrev Level := Bool

end Sys2Proof
end

