-- ==== Sys2Proof/Config.lean ====
section
/-! DEFINITION. The implementation parameters of 00_scope.md R11: the values the spec fixes, as constants; the
configurable and OPEN ones, as a record `Params`; and `Config`, a record together with the proof that it meets the
constraints of R13, so that a block with any other configuration cannot be elaborated. -/

namespace Sys2Proof

/-! ## The fixed values of R11 -/

/-- `WAKEUP_HALF_US`: each wakeup half-period lasts 500 µs. -/
def wakeupHalfUs : Micros := 500#32

/-- `PREAMBLE_LEN`. -/
def preambleLen : Nat := 36

/-- `PREAMBLE_VALUE`, 36 bits 1010...10 (30_encoding.md R141). -/
def preambleValue : BitVec 36 := 0xAAAAAAAAA#36

/-- `MARKER_LEN`. -/
def markerLen : Nat := 12

/-- `MARKER_VALUE`, sent as 1010 0011 1001 (30_encoding.md R142). -/
def markerValue : BitVec 12 := 0xA39#12

/-- `LENGTH_BITS`. -/
def lengthBits : Nat := 7

/-- `MAX_PAYLOAD`. -/
def maxPayload : Nat := 64

/-- `CRC_BITS`. -/
def crcBits : Nat := 16

/-- `WAIT_START_LIMIT` = PREAMBLE_LEN + MARKER_LEN. -/
def waitStartLimit : Nat := preambleLen + markerLen

/-! ## The parameters an elaboration chooses -/

/-- The configurable and OPEN parameters of R11. `n`, `st` and `m` have the spec's defaults; the others have no
value in any source (91_not_in_source.md N1 to N3). -/
structure Params where
  /-- `N`, OVERSAMPLING: samples per bit. -/
  n : Nat := 10
  /-- `SAMPLING_TOLERANCE` (ST). -/
  st : Nat := 1
  /-- `NOMINAL_BIT_PERIOD_US`. -/
  nominalBitPeriodUs : Nat
  /-- `STATIC_SYNC_BITS` (K). -/
  k : Nat
  /-- `SKEW_LOW_LIMIT` (SL). -/
  sl : Nat
  /-- `SKEW_HIGH_LIMIT` (SH). -/
  sh : Nat
  /-- `VARIATION_TOLERANCE` (VT). -/
  vt : Nat
  /-- `STATE_TOLERANCE` (STOL). -/
  stol : Nat
  /-- `SYNC_LENGTH`. -/
  syncLength : Nat
  /-- `LOW_ALLOWED_TRANSMISSION_RATE` (RATE_LO), µs per bit. -/
  rateLo : Nat
  /-- `HIGH_ALLOWED_TRANSMISSION_RATE` (RATE_HI), µs per bit. -/
  rateHi : Nat
  /-- `SYNC_PERIOD_MULTIPLIER` (M). -/
  m : Nat := 1
  deriving DecidableEq, Repr

/-- The constraints of 00_scope.md R13, one conjunct each (`0 <= ST`, `VT >= 0`, `STOL >= 0` hold of every Nat). -/
def Params.wellFormed (p : Params) : Bool :=
  decide (3 ≤ p.n) &&
  decide (2 * p.st + 2 < p.n) &&
  decide (p.n ≤ p.nominalBitPeriodUs) &&
  decide (p.nominalBitPeriodUs < 2 ^ 32) &&
  decide (2 ≤ p.k) && decide (p.k ≤ 36) &&
  decide (1 ≤ p.sl) && decide (p.sl ≤ p.sh) &&
  decide (2 ≤ p.syncLength) && decide (p.syncLength % 2 = 0) &&
  decide (p.n ≤ p.rateLo) && decide (p.rateLo ≤ p.rateHi) && decide (p.rateHi < 2 ^ 32) &&
  (decide (p.m = 1) || decide (p.m = 2))

/-- A configuration a block can be elaborated with (00_scope.md R13): the parameters and the proof of the
constraints. It is static for the life of a block (R11, D8). -/
structure Config where
  params : Params
  wf : params.wellFormed = true := by decide
  deriving DecidableEq, Repr

/-- Elaboration (00_scope.md R13, 70_reset_and_hazards.md R405 point 1): a model refuses any configuration that is
not well formed. -/
def Params.elaborate (p : Params) : Option Config :=
  if h : p.wellFormed = true then some { params := p, wf := h } else none

/-- The test configuration TC1 of 00_scope.md R15. It is no default of the hardware: State.reset carries it as a
DESIGN CHOICE (notes/assumptions/1.md) and no statement rests on it. -/
def Config.tc1 : Config where
  params :=
    { n := 10, st := 1, nominalBitPeriodUs := 1000, k := 4, sl := 7, sh := 13, vt := 2, stol := 1,
      syncLength := 8, rateLo := 500, rateHi := 2500, m := 1 }

end Sys2Proof
end

