-- ==== Sys2Proof/Syntax.lean ====
section
/-! DEFINITION. The nine commands of the opcode map (30_encoding.md R104), one constructor per row of
spec/opcode_table.json. They are the block's instructions (00_scope.md R2). Operands stand in the order of R108. -/

namespace Sys2Proof

/-- A command of the command port. Operands are unsigned fields of the word (30_encoding.md R101, R102). -/
inductive Instr where
  /-- RESET (OPC 1, format F0): 70_reset_and_hazards.md R401. -/
  | reset
  /-- TX_SEND (OPC 2, format FS): 40_transmit_framer.md R151. -/
  | txSend (payload : BitVec 64) (len : BitVec 7) (crc : BitVec 16)
  /-- TX_TICK (OPC 3, format F0): 40_transmit_framer.md R152. -/
  | txTick
  /-- TX_CANCEL (OPC 4, format F0): 40_transmit_framer.md R153. -/
  | txCancel
  /-- RX_START (OPC 5, format F0): 42_receive_framer.md R233. -/
  | rxStart
  /-- RX_STOP (OPC 6, format F0): 42_receive_framer.md R234. -/
  | rxStop
  /-- RX_SAMPLE (OPC 7, format FR): 42_receive_framer.md R235. -/
  | rxSample (lvl : Level) (ts : Micros)
  /-- RX_ATTACH_SYNC (OPC 8, format F0): 42_receive_framer.md R236. -/
  | rxAttachSync
  /-- RX_DETACH_SYNC (OPC 9, format F0): 42_receive_framer.md R237. -/
  | rxDetachSync
  deriving DecidableEq, Repr

/-- Why a word spells no command (30_encoding.md R105, R106). -/
inductive DecodeError where
  /-- The OPC field is 0x0 or 0xA to 0xF (R105). -/
  | undefinedOpcode (opc : BitVec 4)
  /-- A bit the format reserves is not zero (R105). -/
  | reservedBits (word : CommandWord)
  /-- A TX_SEND whose LEN is greater than 64 (R106). -/
  | sendLengthOver64 (len : BitVec 7)
  /-- A byte string that is not one 128-bit word (R103: the length is fixed). -/
  | notOneWord (bytes : Nat)
  deriving DecidableEq, Repr

end Sys2Proof
end

