-- ==== Sys2Proof/WellFormed.lean ====
section
/-! DEFINITION. Which commands are well formed: TX_SEND with LEN at most 64 (30_encoding.md R106); every other
command with every operand (R102). -/

namespace Sys2Proof

/-- A TX_SEND carries a message of the data model, `payload_length` 0 to 64 (30_encoding.md R106). -/
def sendLengthOk (len : BitVec 7) : Bool := decide (len.toNat ≤ maxPayload)

/-- The command spells something the encoding admits. -/
def Instr.wellFormed : Instr → Bool
  | .txSend _ len _ => sendLengthOk len
  | .reset => true
  | .txTick => true
  | .txCancel => true
  | .rxStart => true
  | .rxStop => true
  | .rxSample _ _ => true
  | .rxAttachSync => true
  | .rxDetachSync => true

end Sys2Proof
end

