-- ==== Sys2Proof/Decode.lean ====
section
/-! DEFINITION. The decoder (30_encoding.md R100 to R106), total on any word and any byte string, rejecting by name;
after it the encoder, written from the same tables; the byte carriage of words (20_memory.md R85); the opcode map as
a table of masks (R104); and the listing form of a command (R108). -/

namespace Sys2Proof

/-! ## Fields of a command word (R101) -/

/-- `OPC = c[3:0]`. -/
def CommandWord.opc (c : CommandWord) : BitVec 4 := c.extractLsb' 0 4

/-- `LEN = c[22:16]` (format FS). -/
def CommandWord.len (c : CommandWord) : BitVec 7 := c.extractLsb' 16 7

/-- `CRC = c[47:32]` (format FS). -/
def CommandWord.crc (c : CommandWord) : BitVec 16 := c.extractLsb' 32 16

/-- `PAYLOAD = c[127:64]` (format FS). -/
def CommandWord.payload (c : CommandWord) : BitVec 64 := c.extractLsb' 64 64

/-- `LVL = c[8]` (format FR). -/
def CommandWord.lvl (c : CommandWord) : Level := c.getLsbD 8

/-- `TS = c[63:32]` (format FR). -/
def CommandWord.ts (c : CommandWord) : Micros := c.extractLsb' 32 32

/-- Reserved bits of format F0: `[127:4]`. -/
def reservedF0 : CommandWord := 0xffffffff_ffffffff_ffffffff_fffffff0#128

/-- Reserved bits of format FS: `[15:4]`, `[31:23]`, `[63:48]`. -/
def reservedFS : CommandWord := 0x00000000_00000000_ffff0000_ff80fff0#128

/-- Reserved bits of format FR: `[7:4]`, `[31:9]`, `[127:64]`. -/
def reservedFR : CommandWord := 0xffffffff_ffffffff_00000000_fffffef0#128

/-! ## Decoding -/

/-- Check the bits a format reserves, then answer the command (R100: "then checks every bit the format reserves"). -/
def withReserved (reserved c : CommandWord) (i : Except DecodeError Instr) : Except DecodeError Instr :=
  if c &&& reserved = 0#128 then i else .error (.reservedBits c)

/-- The command a 128-bit word spells, or why it spells none (R104 to R106). The reserved bits are checked before
the length of a TX_SEND (notes/assumptions/9.md). -/
def decode (c : CommandWord) : Except DecodeError Instr :=
  match c.opc.toNat with
  | 1 => withReserved reservedF0 c (.ok .reset)
  | 2 => withReserved reservedFS c
      (if sendLengthOk c.len then .ok (.txSend c.payload c.len c.crc) else .error (.sendLengthOver64 c.len))
  | 3 => withReserved reservedF0 c (.ok .txTick)
  | 4 => withReserved reservedF0 c (.ok .txCancel)
  | 5 => withReserved reservedF0 c (.ok .rxStart)
  | 6 => withReserved reservedF0 c (.ok .rxStop)
  | 7 => withReserved reservedFR c (.ok (.rxSample c.lvl c.ts))
  | 8 => withReserved reservedF0 c (.ok .rxAttachSync)
  | 9 => withReserved reservedF0 c (.ok .rxDetachSync)
  | _ => .error (.undefinedOpcode c.opc)

/-! ## Words as bytes and as 32-bit groups (20_memory.md R85) -/

/-- Byte `k` of a word is bits `[8k+7:8k]`. -/
def byteOf (c : CommandWord) (k : Nat) : Byte := c.extractLsb' (8 * k) 8

/-- The 16 bytes of a word, least significant first. -/
def bytesOf (c : CommandWord) : List Byte := (List.range 16).map (byteOf c)

/-- The 32-bit word `k` of a word is bits `[32k+31:32k]`. -/
def group32 (c : CommandWord) (k : Nat) : BitVec 32 := c.extractLsb' (32 * k) 32

/-- The number a byte string spells, least significant byte first. -/
def natOfBytes : List Byte → Nat
  | [] => 0
  | b :: bs => b.toNat + 256 * natOfBytes bs

/-- The word 16 bytes carry. -/
def wordOfBytes (bs : List Byte) : CommandWord := BitVec.ofNat 128 (natOfBytes bs)

/-- Decoding of any byte string: one word is exactly 16 bytes (R103). -/
def decodeBytes (bs : List Byte) : Except DecodeError Instr :=
  if bs.length = 16 then decode (wordOfBytes bs) else .error (.notOneWord bs.length)

/-! ## Encoding (R101, R104) -/

/-- A field whose lowest bit is bit `lo` of a `w`-bit word, every other bit 0. -/
def placeAt {n : Nat} (w : Nat) (v : BitVec n) (lo : Nat) : BitVec w := v.setWidth w <<< lo

/-- A word of format F0: `OPC [3:0]`, every other bit 0. -/
def wordF0 (opc : BitVec 4) : CommandWord := placeAt 128 opc 0

/-- A word of format FS: `OPC [3:0]`, `LEN [22:16]`, `CRC [47:32]`, `PAYLOAD [127:64]`. -/
def wordFS (opc : BitVec 4) (payload : BitVec 64) (len : BitVec 7) (crc : BitVec 16) : CommandWord :=
  placeAt 128 opc 0 ||| placeAt 128 len 16 ||| placeAt 128 crc 32 ||| placeAt 128 payload 64

/-- A word of format FR: `OPC [3:0]`, `LVL [8]`, `TS [63:32]`. -/
def wordFR (opc : BitVec 4) (lvl : Level) (ts : Micros) : CommandWord :=
  placeAt 128 opc 0 ||| placeAt 128 (BitVec.ofBool lvl) 8 ||| placeAt 128 ts 32

/-- The word of a command (R104). -/
def encode : Instr → CommandWord
  | .reset => wordF0 1#4
  | .txSend payload len crc => wordFS 2#4 payload len crc
  | .txTick => wordF0 3#4
  | .txCancel => wordF0 4#4
  | .rxStart => wordF0 5#4
  | .rxStop => wordF0 6#4
  | .rxSample lvl ts => wordFR 7#4 lvl ts
  | .rxAttachSync => wordF0 8#4
  | .rxDetachSync => wordF0 9#4

/-! ## The opcode map as the spec tabulates it (R104) -/

/-- The `match` column of the opcode map for the row of a command. -/
def matchOf : Instr → CommandWord
  | .reset => 0x00000000_00000000_00000000_00000001#128
  | .txSend _ _ _ => 0x00000000_00000000_00000000_00000002#128
  | .txTick => 0x00000000_00000000_00000000_00000003#128
  | .txCancel => 0x00000000_00000000_00000000_00000004#128
  | .rxStart => 0x00000000_00000000_00000000_00000005#128
  | .rxStop => 0x00000000_00000000_00000000_00000006#128
  | .rxSample _ _ => 0x00000000_00000000_00000000_00000007#128
  | .rxAttachSync => 0x00000000_00000000_00000000_00000008#128
  | .rxDetachSync => 0x00000000_00000000_00000000_00000009#128

/-- The `mask` column of the opcode map for the row of a command. -/
def maskOf : Instr → CommandWord
  | .txSend _ _ _ => 0x00000000_00000000_ffff0000_ff80ffff#128
  | .rxSample _ _ => 0xffffffff_ffffffff_00000000_fffffeff#128
  | .reset => 0xffffffff_ffffffff_ffffffff_ffffffff#128
  | .txTick => 0xffffffff_ffffffff_ffffffff_ffffffff#128
  | .txCancel => 0xffffffff_ffffffff_ffffffff_ffffffff#128
  | .rxStart => 0xffffffff_ffffffff_ffffffff_ffffffff#128
  | .rxStop => 0xffffffff_ffffffff_ffffffff_ffffffff#128
  | .rxAttachSync => 0xffffffff_ffffffff_ffffffff_ffffffff#128
  | .rxDetachSync => 0xffffffff_ffffffff_ffffffff_ffffffff#128

/-- "A word `c` spells command `X` exactly when `(c AND mask_X) = match_X`" (R104): `c` lies in the row of `i`. -/
def inRowOf (c : CommandWord) (i : Instr) : Bool := c &&& maskOf i == matchOf i

/-! ## Listings (R108) -/

/-- A level as the listing writes it. -/
def levelText (b : Level) : String := if b then "1" else "0"

/-- The mnemonic and its `name=value` operands, values in decimal. -/
def Instr.listing : Instr → String
  | .reset => "RESET"
  | .txSend payload len crc =>
      "TX_SEND payload=" ++ toString payload.toNat ++ ", len=" ++ toString len.toNat ++ ", crc=" ++ toString crc.toNat
  | .txTick => "TX_TICK"
  | .txCancel => "TX_CANCEL"
  | .rxStart => "RX_START"
  | .rxStop => "RX_STOP"
  | .rxSample lvl ts => "RX_SAMPLE lvl=" ++ levelText lvl ++ ", ts=" ++ toString ts.toNat
  | .rxAttachSync => "RX_ATTACH_SYNC"
  | .rxDetachSync => "RX_DETACH_SYNC"

/-- The shorthand `RX_SAMPLE lvl=v ×n @t0+p`: `n` consecutive samples of level `v` at `t0, t0+p, ...` (R108). -/
def sampleBurst (v : Level) : Nat → Micros → Micros → List Instr
  | 0, _, _ => []
  | n + 1, t0, p => .rxSample v t0 :: sampleBurst v n (t0 + p) p

/-! ## The decoder over the opcode table's bit numbering -/

/-- The command the decoder reads from an instruction whose bits are `w`, bit 0 the least significant of its first
word: the table gives every row 128 bits, and the bits above a shorter `nbits` are 0 (notes/assumptions/2.md). -/
def decodeTableWord (nbits w : Nat) : Option Instr :=
  if nbits ≤ 128 then (decode (BitVec.ofNat 128 (w % 2 ^ nbits))).toOption else none

end Sys2Proof
end

