-- ==== Sys2Proof/Machine/State.lean ====
section
/-! DEFINITION. The machine's state as plain data: the record of 10_state.md R30, the ports of 20_memory.md R80, the
collaborators' side of the interface (60_exceptions.md R371 to R375), the elaborated configuration and the command
stream; its reset value (R54, R400); and the reasons a step can stop. INVENTORY.md lists every field with its rule. -/

namespace Sys2Proof.Machine

/-! ## Transmitter Framer session (10_state.md section 2) -/

/-- `tx.state` (R34). -/
inductive TxState where
  | idle | wakeup | syncPreamble | startMarker | length | payload | crc
  deriving DecidableEq, Repr

/-- The TX session `tx` (R34 to R37). -/
structure TxSession where
  /-- `tx.state` (R34). -/
  state : TxState
  /-- `tx.step_index` (R35): which bit of the field goes next, counted down from the field's width. -/
  stepIndex : Nat
  /-- `tx.payload` (R36). -/
  payload : BitVec 64
  /-- `tx.length` (R36). -/
  length : BitVec 7
  /-- `tx.crc` (R36). -/
  crc : BitVec 16
  /-- `tx.line` (R37): the last level driven with SET_SIGNAL. -/
  line : Level
  deriving DecidableEq, Repr

/-! ## Receiver side (10_state.md sections 3 to 6) -/

/-- `rx.state` (R39). -/
inductive RxState where
  | stopped | syncHunt | waitStart | readLength | readPayload | readCrc
  deriving DecidableEq, Repr

/-- The Receiver Framer's registers `rx` (R39 to R43). -/
structure RxFramer where
  /-- `rx.state` (R39). -/
  state : RxState
  /-- `rx.buffer` (R40): the accumulator; in WAIT_START its low 12 bits are the marker window. -/
  buffer : BitVec 64
  /-- `rx.bit_index` (R40): how many bits the accumulator has taken. -/
  bitIndex : Nat
  /-- `rx.length` (R41). -/
  length : BitVec 7
  /-- `rx.payload` (R41). -/
  payload : BitVec 64
  /-- `rx.crc` (R41). -/
  crc : BitVec 16
  /-- `rx.sync_attached` (R42): dynamic hunt when true, static hunt when false. -/
  syncAttached : Bool
  /-- `rx.sample_period` (R43): the period last requested of the RX trigger, 0 when none is armed. -/
  samplePeriod : Micros
  deriving DecidableEq, Repr

/-- The Bit Demodulator's record `dm` (R44 to R46). -/
structure Demod where
  /-- `dm.low_count` (R44). -/
  lowCount : Nat
  /-- `dm.high_count` (R44). -/
  highCount : Nat
  /-- `dm.slot` (R45): the slot of the next sample. -/
  slot : Nat
  /-- `dm.last_bit` (R46). -/
  lastBit : Bool
  deriving DecidableEq, Repr

/-- The static correlator's register `cr` (R47), the last `W` samples with the newest in bit 0: a number below
`2^W` (notes/assumptions/8.md). -/
structure Correlator where
  /-- `cr.reg` (R47). -/
  reg : Nat
  deriving DecidableEq, Repr

/-- `sy.state` (R48). -/
inductive SyncState where
  | waitSync | startSync | sync | done
  deriving DecidableEq, Repr

/-- The Clock Synchronizer's session `sy` (R48). -/
structure SyncSession where
  /-- `sy.state`. -/
  state : SyncState
  /-- `sy.wait_high`: consecutive highs counted in WAIT_SYNC. -/
  waitHigh : Nat
  /-- `sy.run_level`: polarity of the run being collected. -/
  runLevel : Level
  /-- `sy.match`: samples of the run's polarity in the current run. -/
  matched : Nat
  /-- `sy.wrong`: opposite-polarity samples tolerated in the current run. -/
  wrong : Nat
  /-- `sy.expected`: expected samples per run. -/
  expected : Nat
  /-- `sy.expected_valid`: false while the first low run is collected. -/
  expectedValid : Bool
  /-- `sy.processed`: validated half-bits since the timestamp. -/
  processed : Nat
  /-- `sy.t0`: timestamp at which timing started. -/
  t0 : Micros
  /-- `sy.detected`: `detected_bit_period`, valid in DONE. -/
  detected : Micros
  deriving DecidableEq, Repr

/-- The receiver side of the block: the Receiver Framer and the three parts it owns (42_receive_framer.md R230). -/
structure Receiver where
  rx : RxFramer
  dm : Demod
  cr : Correlator
  sy : SyncSession
  deriving DecidableEq, Repr

/-! ## Outputs (30_encoding.md sections 4 and 5) -/

/-- The response of a step (R109). -/
inductive Resp where
  | ok | busy
  deriving DecidableEq, Repr

/-- The five fault points (60_exceptions.md R352). -/
inductive FaultCode where
  | sampling | frameInvalid | syncLost | syncRun | syncRate
  deriving DecidableEq, Repr

/-- An output event: one call on a collaborator or callback (30_encoding.md R120). -/
inductive Event where
  | setSignal (lvl : Level)
  | txSetOneShot (us : Micros)
  | txSetRecurring (us : Micros)
  | txCancelTrigger
  | txComplete
  | rxSetRecurring (us : Micros)
  | rxCancelTrigger
  | rxMessage (payload : BitVec 64) (len : BitVec 7) (crc : BitVec 16)
  | rxSynchronized (us : Micros)
  | fault (code : FaultCode)
  deriving DecidableEq, Repr

/-! ## The collaborators' side (60_exceptions.md R371 to R375) -/

/-- The active request of a trigger, at most one (R371, R372). -/
inductive Trigger where
  | idle
  | oneShot (us : Micros)
  | recurring (us : Micros)
  deriving DecidableEq, Repr

/-- What the collaborators hold of the block's requests: the two triggers' active requests, and the level last
driven on the line, `none` before the first SET_SIGNAL (R371, R374, R375; 70_reset_and_hazards.md R406). -/
structure Agents where
  txTrigger : Trigger
  rxTrigger : Trigger
  line : Option Level
  deriving DecidableEq, Repr

/-! ## The whole state -/

/-- The state of the machine. `tx` and `rcv` are the block's record (R30); `resp`, `events` and `history` its outputs;
`agents` the collaborators' side; `cfg` the elaborated configuration, which nothing writes (notes/assumptions/1.md);
`inbox` the command words delivered and not yet taken (notes/assumptions/2.md). -/
structure State where
  cfg : Config
  tx : TxSession
  rcv : Receiver
  /-- The response of the last step (R109), `none` before any step. -/
  resp : Option Resp
  /-- The events of the last step, in order (R120, R121). -/
  events : List Event
  /-- The event history of the run, oldest first (60_exceptions.md R357). -/
  history : List Event
  agents : Agents
  inbox : List CommandWord
  deriving DecidableEq, Repr

/-! ## Reset values (10_state.md R54) -/

/-- The reset column of R34 to R37. -/
def TxSession.reset : TxSession where
  state := .idle
  stepIndex := 0
  payload := 0#64
  length := 0#7
  crc := 0#16
  line := false

/-- The reset column of R39 to R43. -/
def RxFramer.reset : RxFramer where
  state := .stopped
  buffer := 0#64
  bitIndex := 0
  length := 0#7
  payload := 0#64
  crc := 0#16
  syncAttached := false
  samplePeriod := 0#32

/-- The reset column of R44 to R46, which is also what a demodulator reset leaves in `dm` (R49). -/
def Demod.reset : Demod where
  lowCount := 0
  highCount := 0
  slot := 0
  lastBit := false

/-- The reset value of R47. -/
def Correlator.reset : Correlator where
  reg := 0

/-- The reset column of R48, which is also what `sync_reset()` leaves (43_clock_synchronizer.md R301). -/
def SyncSession.reset : SyncSession where
  state := .waitSync
  waitHigh := 0
  runLevel := false
  matched := 0
  wrong := 0
  expected := 0
  expectedValid := false
  processed := 0
  t0 := 0#32
  detected := 0#32

/-- The receiver side after reset (R54). -/
def Receiver.reset : Receiver where
  rx := .reset
  dm := .reset
  cr := .reset
  sy := .reset

/-- Power-on (70_reset_and_hazards.md R400): no active trigger request, a line not yet driven. -/
def Agents.powerOn : Agents where
  txTrigger := .idle
  rxTrigger := .idle
  line := none

/-- The state after power-on reset of a block elaborated with configuration `c` (70_reset_and_hazards.md R400): every
field as R54 says, no event, no response, no command delivered. -/
def State.powerOn (c : Config) : State where
  cfg := c
  tx := .reset
  rcv := .reset
  resp := none
  events := []
  history := []
  agents := .powerOn
  inbox := []

/-- The machine right after reset. The OPEN parameters have no value in the spec: the configuration standing here is
TC1, a DESIGN CHOICE (notes/assumptions/1.md). -/
def State.reset : State := State.powerOn Config.tc1

/-! ## Why a step can stop -/

/-- A fault that stops the machine: the block has none ("none are fatal", 60_exceptions.md R354; "the block itself is
never stuck", R359). The FAULT events of R352 are outputs, not these (R357). Raised by nobody; safe. -/
inductive Fault where
  deriving DecidableEq, Repr

/-- Why a command gets no meaning. -/
inductive Refusal where
  /-- An instruction whose meaning is not written yet; raised by exec's arm of that instruction only. Safe. -/
  | notModelled (mnemonic : String)
  /-- A word that spells no command (60_exceptions.md R358), raised by step on a word the decoder rejects and by the
  meaning of TX_SEND on a length over 64 (30_encoding.md R106). The run ends here, which is the refusal mark that
  stays for the rest of the run (notes/assumptions/4.md). Safe: the hardware's behaviour is unknown. -/
  | spellsNoCommand (why : DecodeError)
  deriving DecidableEq, Repr

end Sys2Proof.Machine
end

