-- ==== Sys2Proof/Machine/Operands.lean ====
section
/-! DEFINITION. The operand forms of the block: the derived constants of the configuration (00_scope.md R12,
42_receive_framer.md R250), fields serialised and accumulated most-significant bit first (20_memory.md R82, R83), and
the 128-bit words of events and responses (30_encoding.md R109, R120). -/

namespace Sys2Proof.Machine

/-! ## Derived constants (00_scope.md R12) -/

/-- The decision threshold `T = N - SAMPLING_TOLERANCE - 2`. -/
def threshold (c : Config) : Nat := c.params.n - c.params.st - 2

/-- A µs parameter as the 32-bit operand of an event (R13 keeps it below `2^32`). -/
def micros (us : Nat) : Micros := BitVec.ofNat 32 us

/-- `NOMINAL_BIT_PERIOD_US` as an event operand. -/
def nominalBitUs (c : Config) : Micros := micros c.params.nominalBitPeriodUs

/-- `NOMINAL_SAMPLE_US = floor(NOMINAL_BIT_PERIOD_US / N)`. -/
def nominalSampleUs (c : Config) : Micros := micros (c.params.nominalBitPeriodUs / c.params.n)

/-- The correlator width `W = K * N`. -/
def correlatorWidth (c : Config) : Nat := c.params.k * c.params.n

/-! ## Bits in and out, most significant first -/

/-- A bit as a number. -/
def bitNat (b : Bool) : Nat := if b then 1 else 0

/-- `((v << 1) | b) mod 2^w` on numbers: the new bit becomes bit 0 and earlier bits move up (20_memory.md R83). -/
def shiftInNat (w v : Nat) (b : Bool) : Nat := (2 * v + bitNat b) % 2 ^ w

/-- `((buffer << 1) | b) mod 2^w` on the 64-bit accumulator, for `w` up to 64. -/
def shiftIn (w : Nat) (buffer : BitVec 64) (b : Bool) : BitVec 64 :=
  BitVec.ofNat 64 (shiftInNat w buffer.toNat b)

/-- `V[i]` of the field a TX state sends (40_transmit_framer.md R155), bit 0 the least significant; IDLE and WAKEUP
send no field. -/
def TxSession.fieldBit (t : TxSession) (i : Nat) : Bool :=
  match t.state with
  | .idle => false
  | .wakeup => false
  | .syncPreamble => preambleValue.getLsbD i
  | .startMarker => markerValue.getLsbD i
  | .length => t.length.getLsbD i
  | .payload => t.payload.getLsbD i
  | .crc => t.crc.getLsbD i

/-- The width of the field a TX state sends, which its step counter is loaded with on entry (40_transmit_framer.md
R155); in WAKEUP the two half-periods (R160). -/
def TxSession.fieldWidth (t : TxSession) : Nat :=
  match t.state with
  | .idle => 0
  | .wakeup => 2
  | .syncPreamble => preambleLen
  | .startMarker => markerLen
  | .length => lengthBits
  | .payload => t.length.toNat
  | .crc => crcBits

/-! ## The wire format (30_encoding.md R140 to R145) -/

/-- The low `w` bits of a field in sending order, most significant first (20_memory.md R82). -/
def bitsMsb {n : Nat} (w : Nat) (v : BitVec n) : List Bool := (List.range w).reverse.map v.getLsbD

/-- The field bits of a frame after WAKEUP, in sending order (R140): preamble, start marker, length, the low `len` bits
of the payload, CRC. -/
def frameBits (payload : BitVec 64) (len : BitVec 7) (crc : BitVec 16) : List Bool :=
  bitsMsb preambleLen preambleValue ++ bitsMsb markerLen markerValue ++ bitsMsb lengthBits len ++
    bitsMsb len.toNat payload ++ bitsMsb crcBits crc

/-- The level an event drives on the line, if it drives one. -/
def Event.level? : Event → Option Level
  | .setSignal lvl => some lvl
  | .txSetOneShot _ => none
  | .txSetRecurring _ => none
  | .txCancelTrigger => none
  | .txComplete => none
  | .rxSetRecurring _ => none
  | .rxCancelTrigger => none
  | .rxMessage _ _ _ => none
  | .rxSynchronized _ => none
  | .fault _ => none

/-- Whether an event is a FAULT event (60_exceptions.md R351). -/
def Event.isFault : Event → Bool
  | .fault _ => true
  | .setSignal _ => false
  | .txSetOneShot _ => false
  | .txSetRecurring _ => false
  | .txCancelTrigger => false
  | .txComplete => false
  | .rxSetRecurring _ => false
  | .rxCancelTrigger => false
  | .rxMessage _ _ _ => false
  | .rxSynchronized _ => false

/-! ## The reference pattern of the static correlator (42_receive_framer.md R250) -/

/-- "repeat N times: REF <- (REF << 1) | p", with `n` repetitions left. -/
def repeatBit (p : Bool) : Nat → Nat → Nat
  | 0, acc => acc
  | n + 1, acc => repeatBit p n (2 * acc + bitNat p)

/-- The loop of R250 over the preamble bits in sending order, `left` bits still to come of which the first is
`PREAMBLE_VALUE[35 - i]`. -/
def referenceFrom (n : Nat) : Nat → Nat → Nat → Nat
  | 0, _, acc => acc
  | left + 1, i, acc => referenceFrom n left (i + 1) (repeatBit (preambleValue.getLsbD (35 - i)) n acc)

/-- `REF`: the first `K` preamble bits, each repeated `N` times, the earliest in the most significant position. -/
def reference (c : Config) : Nat := referenceFrom c.params.n c.params.k 0 0

/-! ## Event words and response bits (30_encoding.md R109, R120) -/

/-- The CODE of a fault (60_exceptions.md R352). -/
def FaultCode.code : FaultCode → BitVec 8
  | .sampling => 1#8
  | .frameInvalid => 2#8
  | .syncLost => 3#8
  | .syncRun => 4#8
  | .syncRate => 5#8

/-- The event code: `EVC = e[3:0]` (R120). -/
def Event.code : Event → BitVec 4
  | .setSignal _ => 0x1#4
  | .txSetOneShot _ => 0x2#4
  | .txSetRecurring _ => 0x3#4
  | .txCancelTrigger => 0x4#4
  | .txComplete => 0x5#4
  | .rxSetRecurring _ => 0x6#4
  | .rxCancelTrigger => 0x7#4
  | .rxMessage _ _ _ => 0x8#4
  | .rxSynchronized _ => 0x9#4
  | .fault _ => 0xA#4

/-- The fields of an event beside its code (R120): `LVL [8]`, `US [63:32]`, `CODE [23:16]`, or `LEN [22:16]`,
`CRC [47:32]`, `PAYLOAD [127:64]`. -/
def Event.operands : Event → EventWord
  | .setSignal lvl => placeAt 128 (BitVec.ofBool lvl) 8
  | .txSetOneShot us => placeAt 128 us 32
  | .txSetRecurring us => placeAt 128 us 32
  | .txCancelTrigger => 0#128
  | .txComplete => 0#128
  | .rxSetRecurring us => placeAt 128 us 32
  | .rxCancelTrigger => 0#128
  | .rxMessage payload len crc => placeAt 128 len 16 ||| placeAt 128 crc 32 ||| placeAt 128 payload 64
  | .rxSynchronized us => placeAt 128 us 32
  | .fault code => placeAt 128 code.code 16

/-- The 128-bit word of an event; every bit not listed is zero (R120). -/
def Event.word (e : Event) : EventWord := placeAt 128 e.code 0 ||| e.operands

/-- `RESP`: 0 is OK, 1 is BUSY (R109). -/
def Resp.bit : Resp → BitVec 1
  | .ok => 0#1
  | .busy => 1#1

end Sys2Proof.Machine
end

