-- ==== Sys2Proof/Machine/Flags.lean ====
section
/-! DEFINITION. The status word (30_encoding.md R131), computed from the state and never stored (10_state.md R52), and
the derived Busy condition (R38). The block has no condition codes (R50). -/

namespace Sys2Proof.Machine

/-- TX_STATE of the status word: IDLE 0 to CRC 6. -/
def TxState.code : TxState → BitVec 3
  | .idle => 0#3
  | .wakeup => 1#3
  | .syncPreamble => 2#3
  | .startMarker => 3#3
  | .length => 4#3
  | .payload => 5#3
  | .crc => 6#3

/-- RX_STATE of the status word: STOPPED 0 to READ_CRC 5. -/
def RxState.code : RxState → BitVec 3
  | .stopped => 0#3
  | .syncHunt => 1#3
  | .waitStart => 2#3
  | .readLength => 3#3
  | .readPayload => 4#3
  | .readCrc => 5#3

/-- SYNC_STATE of the status word: WAIT_SYNC 0 to DONE 3. -/
def SyncState.code : SyncState → BitVec 2
  | .waitSync => 0#2
  | .startSync => 1#2
  | .sync => 2#2
  | .done => 3#2

/-- `STATUS` (R131): `[2:0]` TX_STATE, `[3]` TX_LINE, `[6:4]` RX_STATE, `[7]` SYNC_ATTACHED, `[9:8]` SYNC_STATE,
`[18:12]` TX_STEP, `[26:20]` RX_BIT_INDEX; the reserved bits `[11:10]`, `[19]`, `[31:27]` read 0. -/
def State.statusWord (s : State) : StatusWord :=
  placeAt 32 s.tx.state.code 0 |||
  placeAt 32 (BitVec.ofBool s.tx.line) 3 |||
  placeAt 32 s.rcv.rx.state.code 4 |||
  placeAt 32 (BitVec.ofBool s.rcv.rx.syncAttached) 7 |||
  placeAt 32 s.rcv.sy.state.code 8 |||
  placeAt 32 (BitVec.ofNat 7 s.tx.stepIndex) 12 |||
  placeAt 32 (BitVec.ofNat 7 s.rcv.rx.bitIndex) 20

/-- "the block is busy exactly when `tx.state != IDLE`" (10_state.md R38). -/
def TxSession.busy (t : TxSession) : Bool := decide (t.state ≠ .idle)

end Sys2Proof.Machine
end

