-- ==== Sys2Proof/Machine/Ops.lean ====
section
/-! DEFINITION. The named operations every meaning is written over: what the collaborators make of an event
(60_exceptions.md R371 to R375), how a step ends (30_encoding.md R109, R120), the resets of 10_state.md R49 and
42_receive_framer.md R233, R234, R240, and how the next command word is taken. The block has no trap entry and no
return (60_exceptions.md R363): its shared fault handling is `enterSyncHunt`, the single return path to SYNC_HUNT. -/

namespace Sys2Proof.Machine

/-! ## The collaborators -/

/-- What a collaborator makes of one event: a set replaces the active request of its trigger, a cancel ends it
(60_exceptions.md R371, R372, R374), SET_SIGNAL drives the line (R375); the other events ask for nothing. -/
def Agents.observe (a : Agents) : Event → Agents
  | .setSignal lvl => { a with line := some lvl }
  | .txSetOneShot us => { a with txTrigger := .oneShot us }
  | .txSetRecurring us => { a with txTrigger := .recurring us }
  | .txCancelTrigger => { a with txTrigger := .idle }
  | .rxSetRecurring us => { a with rxTrigger := .recurring us }
  | .rxCancelTrigger => { a with rxTrigger := .idle }
  | .txComplete => a
  | .rxMessage _ _ _ => a
  | .rxSynchronized _ => a
  | .fault _ => a

/-- The events of a step, taken in order. -/
def Agents.observeAll (a : Agents) (es : List Event) : Agents := es.foldl Agents.observe a

/-- One firing of a trigger: a one-shot request is used up, a recurring one stays (60_exceptions.md R371). -/
def Trigger.fire : Trigger → Trigger
  | .idle => .idle
  | .oneShot _ => .idle
  | .recurring us => .recurring us

/-! ## How a step ends -/

/-- The end of a step: its response, its events in order, the event history, and what the collaborators now hold. -/
def State.complete (s : State) (r : Resp) (es : List Event) : State :=
  { s with resp := some r, events := es, history := s.history ++ es, agents := s.agents.observeAll es }

/-- A step of the Transmitter Framer: it writes `tx` alone (10_state.md R31). -/
def State.completeTx (s : State) (p : TxSession × List Event) : State :=
  { s with tx := p.1 }.complete .ok p.2

/-- A step of the receiver side: it writes `rx`, `dm`, `cr`, `sy` alone (10_state.md R31). -/
def State.completeRx (s : State) (p : Receiver × List Event) : State :=
  { s with rcv := p.1 }.complete .ok p.2

/-- The TX trigger fires: the command TX_TICK is that firing (60_exceptions.md R361, R371). -/
def State.fireTx (s : State) : State :=
  { s with agents := { s.agents with txTrigger := s.agents.txTrigger.fire } }

/-- The RX trigger fires: the command RX_SAMPLE is that firing (60_exceptions.md R361, R374). -/
def State.fireRx (s : State) : State :=
  { s with agents := { s.agents with rxTrigger := s.agents.rxTrigger.fire } }

/-! ## Resets of the receiver side -/

/-- The accumulator reset: `rx.buffer <- 0`, `rx.bit_index <- 0` (10_state.md R49). -/
def RxFramer.clearAccumulator (x : RxFramer) : RxFramer := { x with buffer := 0#64, bitIndex := 0 }

/-- The accumulator reset together with `rx.length`, `rx.payload`, `rx.crc <- 0`, as RX_START, RX_STOP and
`enter_sync_hunt()` perform it. -/
def RxFramer.clearFrame (x : RxFramer) : RxFramer :=
  { x.clearAccumulator with length := 0#7, payload := 0#64, crc := 0#16 }

/-- The demodulator reset: `dm.* <- 0` and `cr.reg <- 0` (10_state.md R49). -/
def Receiver.demodReset (r : Receiver) : Receiver := { r with dm := .reset, cr := .reset }

/-- `sync_reset()` (43_clock_synchronizer.md R301). -/
def Receiver.syncReset (r : Receiver) : Receiver := { r with sy := .reset }

/-- What RX_START, RX_STOP and `enter_sync_hunt()` share: a new `rx.state` and `rx.sample_period`, and the frame,
demodulator and synchronizer reset; `rx.sync_attached` stays. -/
def Receiver.restart (r : Receiver) (state : RxState) (period : Micros) : Receiver :=
  { r with rx := { r.rx.clearFrame with state := state, samplePeriod := period } }.demodReset.syncReset

/-- `enter_sync_hunt()`, the single return path to SYNC_HUNT from a running frame (42_receive_framer.md R240). -/
def Receiver.enterSyncHunt (c : Config) (r : Receiver) : Receiver × List Event :=
  (r.restart .syncHunt (nominalSampleUs c), [.rxCancelTrigger, .rxSetRecurring (nominalSampleUs c)])

/-- A fault point of a frame state: FAULT first among the step's events, then `enter_sync_hunt()`
(60_exceptions.md R351, R352; 30_encoding.md R121). -/
def Receiver.abandonFrame (c : Config) (code : FaultCode) (r : Receiver) : Receiver × List Event :=
  let h := r.enterSyncHunt c
  (h.1, .fault code :: h.2)

/-! ## The command stream -/

/-- The next command word and the state without it: commands are taken one at a time in the order they arrive
(20_memory.md R89); `none` when none has been delivered. -/
def State.takeCommand (s : State) : Option (CommandWord × State) :=
  match s.inbox with
  | [] => none
  | c :: rest => some (c, { s with inbox := rest })

/-- The environment delivers further command words, after those already waiting. -/
def State.deliver (s : State) (cs : List CommandWord) : State := { s with inbox := s.inbox ++ cs }

/-- A command word placed so that it is the next one taken. -/
def State.placeNext (s : State) (c : CommandWord) : State := { s with inbox := c :: s.inbox }

/-- The refusal of a word that spells no command: the step does not happen (60_exceptions.md R358). -/
def refuseWord (why : DecodeError) : Host.Outcome State Fault Refusal := .refused (.spellsNoCommand why)

end Sys2Proof.Machine
end

