-- ==== Sys2Proof/Machine/Control.lean ====
section
/-! DEFINITION. The block reset command (70_reset_and_hazards.md R401). -/

namespace Sys2Proof.Machine

/-- The events of RESET: both cancels, in every state (R401). -/
def resetEvents : List Event := [.txCancelTrigger, .rxCancelTrigger]

/-- Every field of the block's record to its reset value (10_state.md R54); the configuration is not state and is
unchanged (R401), and neither are the command stream and the history. -/
def State.clearBlock (s : State) : State := { s with tx := .reset, rcv := .reset }

/-- RESET (R401). -/
def execReset (s : State) : Host.Outcome State Fault Refusal := .next (s.clearBlock.complete .ok resetEvents)

end Sys2Proof.Machine
end

