-- ==== Sys2Proof/Machine/Demodulate.lean ====
section
/-! DEFINITION. The Bit Demodulator (41_bit_demodulator.md): `demod_sample(level)`, run by RX_SAMPLE in the four frame
states. It reads and writes `dm` alone and emits nothing itself (R201). -/

namespace Sys2Proof.Machine

/-- What `demod_sample` returns (R200). -/
inductive Verdict where
  | none
  | bit (b : Bool)
  | fault
  deriving DecidableEq, Repr

/-- A sample of slots 1 to `N-2` adds to exactly one tally (R203). -/
def Demod.tally (d : Demod) (level : Level) : Demod :=
  if level then { d with highCount := d.highCount + 1 } else { d with lowCount := d.lowCount + 1 }

/-- The majority decision of slot `N-1`, high tested first (R201, R204, R205). -/
def Demod.decision (c : Config) (d : Demod) : Verdict :=
  if threshold c ≤ d.highCount then .bit true
  else if threshold c ≤ d.lowCount then .bit false
  else .fault

/-- `dm.last_bit` after a decision: the bit decided, and what it was after a sampling fault (R201). -/
def Verdict.lastBit (old : Bool) : Verdict → Bool
  | .bit b => b
  | .none => old
  | .fault => old

/-- `demod_sample(level)` (R201). Slot 0 is discarded (R202), slots 1 to `N-2` are tallied (R203), and slot `N-1`,
itself discarded, decides (R204) and resets the tallies. -/
def Demod.sample (c : Config) (d : Demod) (level : Level) : Demod × Verdict :=
  if d.slot = 0 then ({ d with slot := 1 }, .none)
  else if d.slot + 2 ≤ c.params.n then ({ d.tally level with slot := d.slot + 1 }, .none)
  else
    let v := d.decision c
    ({ lowCount := 0, highCount := 0, slot := 0, lastBit := v.lastBit d.lastBit }, v)

/-- The seed of a dynamic recovery (42_receive_framer.md R258): the edge sample is counted as slot 1 of the first bit
cell. -/
def Demod.seed (d : Demod) (level : Level) : Demod :=
  if level then { d with highCount := 1, slot := 2 } else { d with lowCount := 1, slot := 2 }

end Sys2Proof.Machine
end

