-- ==== Sys2Proof/Machine/Synchronize.lean ====
section
/-! DEFINITION. The Clock Synchronizer (43_clock_synchronizer.md): `sync_sample(level, ts)`, run by RX_SAMPLE in the
dynamic hunt. It reads and writes `sy` alone; its caller emits the events. -/

namespace Sys2Proof.Machine

/-- What `sync_sample` returns (R300). -/
inductive SyncResult where
  | none
  | fault (code : FaultCode)
  | done (period : Micros)
  deriving DecidableEq, Repr

/-- What `collect` returns (R306). -/
inductive Collected where
  | more
  | fail
  | complete (total : Nat)
  deriving DecidableEq, Repr

/-- `new_run(level)` (R309): the sample that ended the previous run is the first of the next. -/
def SyncSession.newRun (y : SyncSession) (level : Level) : SyncSession :=
  { y with runLevel := level, matched := 1, wrong := 0 }

/-- `wait_sync(level)` (R303): count highs up to SL; a low after at least SL of them opens the first low run. -/
def SyncSession.wait (c : Config) (y : SyncSession) (level : Level) : SyncSession :=
  if level then { y with waitHigh := min (y.waitHigh + 1) c.params.sl }
  else if c.params.sl ≤ y.waitHigh then
    { y with state := .startSync, waitHigh := 0, expected := 0, expectedValid := false }.newRun false
  else { y with waitHigh := 0 }

/-- `lo` of the run's window: a mathematical integer, which may be negative (R306; 00_scope.md R17, C10). -/
def SyncSession.lo (c : Config) (y : SyncSession) : Int :=
  if y.expectedValid then (y.expected : Int) - (c.params.vt : Int) else (c.params.sl : Int)

/-- `hi` of the run's window (R306). -/
def SyncSession.hi (c : Config) (y : SyncSession) : Nat :=
  if y.expectedValid then y.expected + c.params.vt else c.params.sh

/-- `collect(level)`, the one run-collection primitive (R306 to R308). -/
def SyncSession.collect (c : Config) (y : SyncSession) (level : Level) : SyncSession × Collected :=
  if level = y.runLevel then
    let y' := { y with matched := y.matched + 1 }
    (y', if y.hi c < y'.matched then .fail else .more)
  else if y.lo c ≤ (y.matched : Int) then (y, .complete (y.matched + y.wrong))
  else
    let y' := { y with wrong := y.wrong + 1 }
    (y', if c.params.stol < y'.wrong then .fail else .more)

/-- The estimate of `finish` (R312): `floor(((ts - t0) mod 2^32) * M / SYNC_LENGTH)`. -/
def SyncSession.estimate (c : Config) (y : SyncSession) (ts : Micros) : Nat :=
  (ts - y.t0).toNat * c.params.m / c.params.syncLength

/-- `finish(ts)` (R312): DONE with the period when it lies within the rate window, otherwise FAULT(SYNC_RATE). -/
def SyncSession.finish (c : Config) (y : SyncSession) (ts : Micros) : SyncSession × SyncResult :=
  let period := y.estimate c ts
  if c.params.rateLo ≤ period ∧ period ≤ c.params.rateHi then
    ({ y with detected := micros period, state := .done }, .done (micros period))
  else (.reset, .fault .syncRate)

/-- `run_complete(level, ts, total)` (R310, R311): the first low run gives the expected count and starts the timing;
every later run is one processed half-bit. -/
def SyncSession.runComplete (c : Config) (y : SyncSession) (level : Level) (ts : Micros) (total : Nat) :
    SyncSession × SyncResult :=
  if y.state = .startSync ∧ y.expectedValid = false then
    ({ y with expected := total, expectedValid := true, t0 := ts }.newRun level, .none)
  else
    let y' := { y with processed := y.processed + 1 }
    if y'.processed = c.params.syncLength then y'.finish c ts
    else ({ y' with state := .sync }.newRun level, .none)

/-- The START_SYNC and SYNC arm of `sync_sample` (R300): collect, and on a failed run reset the session and report
FAULT(SYNC_RUN) (R315). -/
def SyncSession.collectRun (c : Config) (y : SyncSession) (level : Level) (ts : Micros) : SyncSession × SyncResult :=
  let r := y.collect c level
  match r.2 with
  | .more => (r.1, .none)
  | .fail => (.reset, .fault .syncRun)
  | .complete total => r.1.runComplete c level ts total

/-- `sync_sample(level, ts)` (R300); in DONE it writes nothing (R316). -/
def SyncSession.sample (c : Config) (y : SyncSession) (level : Level) (ts : Micros) : SyncSession × SyncResult :=
  match y.state with
  | .waitSync => (y.wait c level, .none)
  | .startSync => y.collectRun c level ts
  | .sync => y.collectRun c level ts
  | .done => (y, .none)

end Sys2Proof.Machine
end

