-- ==== Sys2Proof/Machine/Receive.lean ====
section
/-! DEFINITION. The Receiver Framer and the static preamble correlator (42_receive_framer.md): the hunt strategies, the
field states, and the meanings of RX_START, RX_STOP, RX_SAMPLE, RX_ATTACH_SYNC and RX_DETACH_SYNC. The procedures read
and write the receiver side alone (10_state.md R31). -/

namespace Sys2Proof.Machine

/-! ## The field states (R260 to R268) -/

/-- `((buffer << 1) | b) mod 2^w` and one more bit counted, the start of every field state's rule. -/
def RxFramer.take (w : Nat) (x : RxFramer) (b : Bool) : RxFramer :=
  { x with buffer := shiftIn w x.buffer b, bitIndex := x.bitIndex + 1 }

/-- Leave a field state: the accumulator is reset on every exit (R260). -/
def Receiver.advance (r : Receiver) (x : RxFramer) (state : RxState) : Receiver :=
  { r with rx := { x.clearAccumulator with state := state } }

/-- `wait_start_bit(b)` (R261, R262): the match is tested first, then the bound. -/
def Receiver.waitStartBit (c : Config) (r : Receiver) (b : Bool) : Receiver × List Event :=
  let x := r.rx.take markerLen b
  if x.buffer = markerValue.setWidth 64 then (r.advance x .readLength, [])
  else if waitStartLimit < x.bitIndex then { r with rx := x }.abandonFrame c .syncLost
  else ({ r with rx := x }, [])

/-- `length_done()` (R264, R265) on the registers `x` that have just taken the seventh bit. -/
def Receiver.lengthDone (c : Config) (r : Receiver) (x : RxFramer) : Receiver × List Event :=
  if maxPayload < x.buffer.toNat then { r with rx := x }.abandonFrame c .frameInvalid
  else
    let len := x.buffer.setWidth 7
    if len = 0#7 then (r.advance { x with length := len, payload := 0#64 } .readCrc, [])
    else (r.advance { x with length := len } .readPayload, [])

/-- `read_length_bit(b)` (R263). -/
def Receiver.readLengthBit (c : Config) (r : Receiver) (b : Bool) : Receiver × List Event :=
  let x := r.rx.take 64 b
  if x.bitIndex = lengthBits then r.lengthDone c x else ({ r with rx := x }, [])

/-- `read_payload_bit(b)` (R266). -/
def Receiver.readPayloadBit (r : Receiver) (b : Bool) : Receiver × List Event :=
  let x := r.rx.take 64 b
  if x.bitIndex = x.length.toNat then (r.advance { x with payload := x.buffer } .readCrc, [])
  else ({ r with rx := x }, [])

/-- `crc_done()` (R268): the message is reported with the CRC as received, never checked (00_scope.md R8), and the
hunt begins again. -/
def Receiver.crcDone (c : Config) (r : Receiver) (x : RxFramer) : Receiver × List Event :=
  let crc := x.buffer.setWidth 16
  let h := { r with rx := { x with crc := crc } }.enterSyncHunt c
  (h.1, .rxMessage x.payload x.length crc :: h.2)

/-- `read_crc_bit(b)` (R267). -/
def Receiver.readCrcBit (c : Config) (r : Receiver) (b : Bool) : Receiver × List Event :=
  let x := r.rx.take crcBits b
  if x.bitIndex = crcBits then r.crcDone c x else ({ r with rx := x }, [])

/-- `rx_framer_bit(b)` (R260); STOPPED and SYNC_HUNT receive no recovered bit. -/
def Receiver.framerBit (c : Config) (r : Receiver) (b : Bool) : Receiver × List Event :=
  match r.rx.state with
  | .stopped => (r, [])
  | .syncHunt => (r, [])
  | .waitStart => r.waitStartBit c b
  | .readLength => r.readLengthBit c b
  | .readPayload => r.readPayloadBit b
  | .readCrc => r.readCrcBit c b

/-- `frame_sample(level)` (R238): run the demodulator and route its verdict. -/
def Receiver.frameSample (c : Config) (r : Receiver) (level : Level) : Receiver × List Event :=
  let p := r.dm.sample c level
  match p.2 with
  | .none => ({ r with dm := p.1 }, [])
  | .fault => { r with dm := p.1 }.abandonFrame c .sampling
  | .bit b => { r with dm := p.1 }.framerBit c b

/-! ## The hunt strategies (R250 to R258) -/

/-- `static_correlate(level)` (R251): shift the sample in; on exact equality with the reference, WAIT_START. -/
def Receiver.staticCorrelate (c : Config) (r : Receiver) (level : Level) : Receiver × List Event :=
  let reg := shiftInNat (correlatorWidth c) r.cr.reg level
  if reg = reference c then (r.demodReset.advance r.rx .waitStart, [])
  else ({ r with cr := { reg := reg } }, [])

/-- `synchronized(level, period)` (R257, R258): report, re-arm the sampling trigger at `floor(period / N)`, seed the
demodulator with the edge sample, WAIT_START. -/
def Receiver.synchronized (c : Config) (r : Receiver) (level : Level) (period : Micros) : Receiver × List Event :=
  let q := micros (period.toNat / c.params.n)
  let r' := r.demodReset.advance { r.rx with samplePeriod := q } .waitStart
  ({ r' with dm := r'.dm.seed level }, [.rxSynchronized period, .rxSetRecurring q])

/-- `dynamic_hunt(level, ts)` (R255): a synchronizer fault is reported and changes nothing in `rx` (R256). -/
def Receiver.dynamicHunt (c : Config) (r : Receiver) (level : Level) (ts : Micros) : Receiver × List Event :=
  let p := r.sy.sample c level ts
  let r' := { r with sy := p.1 }
  match p.2 with
  | .none => (r', [])
  | .fault code => (r', [.fault code])
  | .done period => r'.synchronized c level period

/-- The hunt, by the strategy `rx.sync_attached` selects (R231). -/
def Receiver.hunt (c : Config) (r : Receiver) (level : Level) (ts : Micros) : Receiver × List Event :=
  if r.rx.syncAttached then r.dynamicHunt c level ts else r.staticCorrelate c level

/-- The body of RX_SAMPLE (R235): one sample feeds exactly one consumer, and none when STOPPED (R239). -/
def Receiver.sample (c : Config) (r : Receiver) (level : Level) (ts : Micros) : Receiver × List Event :=
  match r.rx.state with
  | .stopped => (r, [])
  | .syncHunt => r.hunt c level ts
  | .waitStart => r.frameSample c level
  | .readLength => r.frameSample c level
  | .readPayload => r.frameSample c level
  | .readCrc => r.frameSample c level

/-! ## The commands -/

/-- The body of RX_START (R233): nothing unless STOPPED. -/
def Receiver.start (c : Config) (r : Receiver) : Receiver × List Event :=
  if r.rx.state = .stopped then (r.restart .syncHunt (nominalSampleUs c), [.rxSetRecurring (nominalSampleUs c)])
  else (r, [])

/-- RX_START (R233). -/
def execRxStart (s : State) : Host.Outcome State Fault Refusal := .next (s.completeRx (s.rcv.start s.cfg))

/-- The body of RX_STOP (R234): nothing when STOPPED. -/
def Receiver.stop (r : Receiver) : Receiver × List Event :=
  if r.rx.state = .stopped then (r, []) else (r.restart .stopped 0#32, [.rxCancelTrigger])

/-- RX_STOP (R234). -/
def execRxStop (s : State) : Host.Outcome State Fault Refusal := .next (s.completeRx s.rcv.stop)

/-- RX_SAMPLE (R235): one firing of the RX trigger, one sample. -/
def execRxSample (lvl : Level) (ts : Micros) (s : State) : Host.Outcome State Fault Refusal :=
  .next (s.fireRx.completeRx (s.rcv.sample s.cfg lvl ts))

/-- What RX_ATTACH_SYNC and RX_DETACH_SYNC share (R236, R237): the strategy, a fresh session, and in SYNC_HUNT a cleared
correlator. -/
def Receiver.selectStrategy (attached : Bool) (r : Receiver) : Receiver :=
  let r' := { r with rx := { r.rx with syncAttached := attached } }.syncReset
  if r.rx.state = .syncHunt then { r' with cr := .reset } else r'

/-- RX_ATTACH_SYNC (R236). -/
def execRxAttachSync (s : State) : Host.Outcome State Fault Refusal :=
  .next (s.completeRx (s.rcv.selectStrategy true, []))

/-- RX_DETACH_SYNC (R237). -/
def execRxDetachSync (s : State) : Host.Outcome State Fault Refusal :=
  .next (s.completeRx (s.rcv.selectStrategy false, []))

end Sys2Proof.Machine
end

