-- ==== Sys2Proof/Machine/Transmit.lean ====
section
/-! DEFINITION. The Transmitter Framer (40_transmit_framer.md): the sub-step `tx_tick()` and the meanings of TX_SEND,
TX_TICK and TX_CANCEL. The procedures read and write the TX session alone (10_state.md R31). -/

namespace Sys2Proof.Machine

/-! ## The sub-step (R154 to R168) -/

/-- Enter a field state with the step counter at the field's width (R155). -/
def TxSession.enter (t : TxSession) (state : TxState) (width : Nat) : TxSession :=
  { t with state := state, stepIndex := width }

/-- Drive the line: the event SET_SIGNAL goes with it (10_state.md R37). -/
def TxSession.drive (t : TxSession) (lvl : Level) : TxSession := { t with line := lvl }

/-- The transition of a field state whose step counter has reached 0, and the events it emits (R161 to R168); the
LENGTH exit passes an empty PAYLOAD (R165). IDLE and WAKEUP have none. -/
def TxSession.exitTransition (t : TxSession) : TxSession × List Event :=
  match t.state with
  | .idle => (t, [])
  | .wakeup => (t, [])
  | .syncPreamble => (t.enter .startMarker markerLen, [])
  | .startMarker => (t.enter .length lengthBits, [])
  | .length =>
      if t.length = 0#7 then (t.enter .crc crcBits, []) else (t.enter .payload t.length.toNat, [])
  | .payload => (t.enter .crc crcBits, [])
  | .crc => (t.enter .idle 0, [.txCancelTrigger, .txComplete])

/-- The recurring request of the first preamble bit, and of no other (R157). -/
def TxSession.armRecurring (c : Config) (t : TxSession) : List Event :=
  if t.state = .syncPreamble ∧ t.stepIndex = preambleLen then [.txSetRecurring (nominalBitUs c)] else []

/-- `field_step()` (R156): decrement the step counter, drive the bit at that index, arm the recurring trigger on the
first preamble bit, and take the exit transition when the counter reaches 0. -/
def TxSession.fieldStep (c : Config) (t : TxSession) : TxSession × List Event :=
  let i := t.stepIndex - 1
  let b := t.fieldBit i
  let driven := { t with stepIndex := i }.drive b
  if i = 0 then
    let e := driven.exitTransition
    (e.1, .setSignal b :: (t.armRecurring c ++ e.2))
  else (driven, .setSignal b :: t.armRecurring c)

/-- `wakeup_step()` (R160): high for the first half-period, low for the second, each with a one-shot request; after the
second, SYNC_PREAMBLE. -/
def TxSession.wakeupStep (t : TxSession) : TxSession × List Event :=
  let i := t.stepIndex - 1
  let lvl := decide (i = 1)
  let driven := { t with stepIndex := i }.drive lvl
  (if i = 0 then driven.enter .syncPreamble preambleLen else driven, [.setSignal lvl, .txSetOneShot wakeupHalfUs])

/-- `tx_tick()` (R154); in IDLE it does nothing (R159). -/
def TxSession.tick (c : Config) (t : TxSession) : TxSession × List Event :=
  match t.state with
  | .idle => (t, [])
  | .wakeup => t.wakeupStep
  | .syncPreamble => t.fieldStep c
  | .startMarker => t.fieldStep c
  | .length => t.fieldStep c
  | .payload => t.fieldStep c
  | .crc => t.fieldStep c

/-- The session TX_SEND opens, before its first sub-step (R151). -/
def TxSession.openSession (t : TxSession) (payload : BitVec 64) (len : BitVec 7) (crc : BitVec 16) : TxSession :=
  { t with payload := payload, length := len, crc := crc, state := .wakeup, stepIndex := 2 }

/-! ## The commands -/

/-- TX_SEND (R151). Refused when LEN is over 64 (30_encoding.md R106); BUSY, with no state change and no event, when a
session is active (R169); otherwise the message is captured and the first sub-step runs. -/
def execTxSend (payload : BitVec 64) (len : BitVec 7) (crc : BitVec 16) (s : State) :
    Host.Outcome State Fault Refusal :=
  if sendLengthOk len then
    if s.tx.busy then .next (s.complete .busy [])
    else .next (s.completeTx ((s.tx.openSession payload len crc).tick s.cfg))
  else refuseWord (.sendLengthOver64 len)

/-- TX_TICK (R152): one firing of the TX trigger, one sub-step. -/
def execTxTick (s : State) : Host.Outcome State Fault Refusal :=
  .next (s.fireTx.completeTx (s.tx.tick s.cfg))

/-- The session after TX_CANCEL and the events (R153): the line keeps its level, and no TX_COMPLETE is emitted. -/
def TxSession.cancel (t : TxSession) : TxSession × List Event :=
  if t.busy then (t.enter .idle 0, [.txCancelTrigger]) else (t, [])

/-- TX_CANCEL (R153). -/
def execTxCancel (s : State) : Host.Outcome State Fault Refusal := .next (s.completeTx s.tx.cancel)

end Sys2Proof.Machine
end

