-- ==== Sys2Proof/Machine/Dispatch.lean ====
section
/-! DEFINITION. One arm per command: the meaning of each constructor of Instr. -/

namespace Sys2Proof.Machine

def exec (i : Instr) (s : State) : Host.Outcome State Fault Refusal :=
  match i with
  | .reset => Sys2Proof.Machine.execReset s
  | .txSend payload len crc => Sys2Proof.Machine.execTxSend payload len crc s
  | .txTick => Sys2Proof.Machine.execTxTick s
  | .txCancel => Sys2Proof.Machine.execTxCancel s
  | .rxStart => Sys2Proof.Machine.execRxStart s
  | .rxStop => Sys2Proof.Machine.execRxStop s
  | .rxSample lvl ts => Sys2Proof.Machine.execRxSample lvl ts s
  | .rxAttachSync => Sys2Proof.Machine.execRxAttachSync s
  | .rxDetachSync => Sys2Proof.Machine.execRxDetachSync s

end Sys2Proof.Machine
end

