-- ==== Sys2Proof/Machine/Step.lean ====
section
/-! DEFINITION. One step of the machine: take the next command word, decode it, run the command (00_scope.md R19); and
where the host places a command word for the next step. -/

namespace Sys2Proof.Machine

/-- One step. A word that spells no command is refused (60_exceptions.md R358). With no command delivered the block
does nothing and waits ("nothing else happens between steps", 00_scope.md R19; notes/assumptions/3.md). -/
def step (s : State) : Host.Outcome State Fault Refusal :=
  match s.takeCommand with
  | none => .next s
  | some (c, rest) =>
    match decode c with
    | .ok i => exec i rest
    | .error why => refuseWord why

/-- `s` with the command word of `nbits` bits `w` (the bits above are 0) placed so that the very next step runs exactly
it: the delivery of a command by the environment (notes/assumptions/2.md). -/
def State.withFetchWord (s : State) (nbits w : Nat) : State := s.placeNext (BitVec.ofNat 128 (w % 2 ^ nbits))

end Sys2Proof.Machine
end

