-- ==== Sys2Proof/Safety.lean ====
section
/-! DEFINITION. What claims are stated in: runs of commands; the collaborators' contract, which says when a command is
owed (60_exceptions.md R371 to R374, 70_reset_and_hazards.md R422); and the invariant of the block's state, the ranges
and relations 10_state.md gives its fields. -/

namespace Sys2Proof

/-! ## Which side a command belongs to -/

/-- The commands of the Transmitter Framer (40_transmit_framer.md R150). -/
def Instr.isTx : Instr → Bool
  | .txSend _ _ _ => true
  | .txTick => true
  | .txCancel => true
  | .reset => false
  | .rxStart => false
  | .rxStop => false
  | .rxSample _ _ => false
  | .rxAttachSync => false
  | .rxDetachSync => false

/-- The commands of the Receiver Framer (42_receive_framer.md R230). -/
def Instr.isRx : Instr → Bool
  | .rxStart => true
  | .rxStop => true
  | .rxSample _ _ => true
  | .rxAttachSync => true
  | .rxDetachSync => true
  | .reset => false
  | .txSend _ _ _ => false
  | .txTick => false
  | .txCancel => false

end Sys2Proof

namespace Sys2Proof.Machine

/-! ## Which states belong to a frame -/

/-- The four frame states, in which the demodulator runs (41_bit_demodulator.md R200). -/
def RxState.inFrame : RxState → Bool
  | .stopped => false
  | .syncHunt => false
  | .waitStart => true
  | .readLength => true
  | .readPayload => true
  | .readCrc => true

/-! ## The state a step leaves, part by part -/

/-- The state that differs from `s` in the named parts, the response, the events and the history alone: the
configuration and the command stream are as before. -/
def State.after (s : State) (tx : TxSession) (rcv : Receiver) (agents : Agents) (resp : Resp) (es : List Event) :
    State :=
  { s with tx := tx, rcv := rcv, agents := agents, resp := some resp, events := es, history := s.history ++ es }

/-- The receiver side at the start of a hunt (42_receive_framer.md R233, R240): everything at its reset value but the
strategy, which is kept, and the sampling period, which is nominal. -/
def Receiver.freshHunt (c : Config) (attached : Bool) : Receiver where
  rx := { RxFramer.reset with state := .syncHunt, syncAttached := attached, samplePeriod := nominalSampleUs c }
  dm := .reset
  cr := .reset
  sy := .reset

/-- The state after a step that reports `e` and returns to the hunt (42_receive_framer.md R240): the RX trigger is
cancelled and armed again at the nominal period. -/
def State.afterFrame (s : State) (e : Event) : State :=
  s.after s.tx (.freshHunt s.cfg s.rcv.rx.syncAttached)
    { s.agents with rxTrigger := .recurring (nominalSampleUs s.cfg) } .ok
    [e, .rxCancelTrigger, .rxSetRecurring (nominalSampleUs s.cfg)]

/-- The state after an RX_SAMPLE that only rewrites the receiver side, with no event but those given: the RX trigger
has fired once. -/
def State.afterSample (s : State) (rcv : Receiver) (es : List Event) : State :=
  s.after s.tx rcv { s.agents with rxTrigger := s.agents.rxTrigger.fire } .ok es

/-- The demodulator stands before the last slot of its cell and will decide `b` (41_bit_demodulator.md R201, R204). -/
def Demod.decides (c : Config) (d : Demod) (b : Bool) : Prop :=
  d.slot + 1 = c.params.n ∧
    (if b then c.params.n ≤ d.highCount + c.params.st + 2
     else d.highCount + c.params.st + 2 < c.params.n ∧ c.params.n ≤ d.lowCount + c.params.st + 2)

/-- `dm` after a decision of `b` (41_bit_demodulator.md R201). -/
def Demod.decided (b : Bool) : Demod where
  lowCount := 0
  highCount := 0
  slot := 0
  lastBit := b

/-! ## Runs of commands -/

/-- The commands of a list, one step each, ending early where a step has no next state. -/
def runCommands : List Instr → State → Host.Outcome State Fault Refusal
  | [], s => .next s
  | i :: rest, s =>
    match exec i s with
    | .next t => runCommands rest t
    | .fault f => .fault f
    | .refused r => .refused r

/-- Successive samples of `sync_sample`, `p` µs apart from `ts` on: the session at the end and the last result. -/
def syncRun (c : Config) (p : Micros) : List Level → Micros → SyncSession → SyncResult → SyncSession × SyncResult
  | [], _, y, last => (y, last)
  | l :: ls, ts, y, _ =>
    let r := y.sample c l ts
    syncRun c p ls (ts + p) r.1 r.2

/-- Successive samples of `demod_sample`: the record at the end and the last verdict. -/
def demodRun (c : Config) : List Level → Demod → Verdict → Demod × Verdict
  | [], d, last => (d, last)
  | l :: ls, d, _ =>
    let r := d.sample c l
    demodRun c ls r.1 r.2

/-- Successive bits of `rx_framer_bit`: the receiver side at the end and every event emitted, in order. -/
def framerRun (c : Config) : List Bool → Receiver → List Event → Receiver × List Event
  | [], r, es => (r, es)
  | b :: bs, r, es =>
    let p := r.framerBit c b
    framerRun c bs p.1 (es ++ p.2)

/-! ## The collaborators' contract -/

/-- A trigger agent issues its command only while it has an active request (60_exceptions.md R371, R374); the host may
issue every other command at any time (R377). -/
def Agents.mayIssue (a : Agents) : Instr → Bool
  | .txTick => decide (a.txTrigger ≠ .idle)
  | .rxSample _ _ => decide (a.rxTrigger ≠ .idle)
  | .reset => true
  | .txSend _ _ _ => true
  | .txCancel => true
  | .rxStart => true
  | .rxStop => true
  | .rxAttachSync => true
  | .rxDetachSync => true

/-- The next command word, if there is one, spells a command its sender may issue now. -/
def State.contractHolds (s : State) : Bool :=
  match s.takeCommand with
  | none => true
  | some (c, _) =>
    match decode c with
    | .ok i => s.agents.mayIssue i
    | .error _ => false

/-- A safe run of `k` steps: every command in it is owed, and no word is refused. -/
def safeRun : Nat → State → Bool
  | 0, _ => true
  | k + 1, s =>
    s.contractHolds &&
      match step s with
      | .next t => safeRun k t
      | .fault _ => false
      | .refused _ => false

/-! ## A loopback, for claims that assume one -/

/-- The levels a line may show: the level last driven, and either level before the first SET_SIGNAL (20_memory.md R91;
70_reset_and_hazards.md R406). -/
def lineMayShow (line : Option Level) (lvl : Level) : Bool :=
  match line with
  | none => true
  | some driven => decide (lvl = driven)

/-- The levels a sample of a loopback may carry when the line goes from `before` to `now` at its instant: either, where
a SET_SIGNAL falls at that instant, and the driven one otherwise (60_exceptions.md R375, R376). -/
def sampleMayCarry (before now : Option Level) (lvl : Level) : Bool := lineMayShow before lvl || lineMayShow now lvl

/-! ## The invariant -/

/-- The ranges of the TX session (10_state.md R35, R36; 40_transmit_framer.md R155, R156, R160). -/
structure TxSession.Inv (t : TxSession) : Prop where
  length : t.length.toNat ≤ maxPayload
  idle : t.state = .idle → t.stepIndex = 0
  wakeup : t.state = .wakeup → t.stepIndex = 1
  counting : t.state ≠ .idle → 1 ≤ t.stepIndex
  width : t.stepIndex ≤ t.fieldWidth

/-- The ranges of the demodulator (10_state.md R44, R45): `low_count + high_count = max(0, slot - 1)`. -/
structure Demod.Inv (c : Config) (d : Demod) : Prop where
  slot : d.slot < c.params.n
  tallies : d.lowCount + d.highCount = d.slot - 1

/-- A run is being collected: the ranges of R48 in START_SYNC and SYNC. -/
structure SyncSession.Collecting (c : Config) (y : SyncSession) : Prop where
  waitHigh : y.waitHigh = 0
  started : 1 ≤ y.matched
  matched : y.matched ≤ y.hi c
  wrong : y.wrong ≤ c.params.stol
  expected : y.expected ≤ c.params.sh + c.params.stol
  learning : y.expectedValid = false → y.expected = 0 ∧ y.t0 = 0#32
  learned : y.expectedValid = true → c.params.sl ≤ y.expected
  processed : y.processed < c.params.syncLength
  detected : y.detected = 0#32

/-- The ranges of the synchronizer session (10_state.md R48) and what its states mean (43_clock_synchronizer.md
R302, R303, R309 to R312). -/
structure SyncSession.Inv (c : Config) (y : SyncSession) : Prop where
  wait : y.state = .waitSync → y = { SyncSession.reset with waitHigh := y.waitHigh } ∧ y.waitHigh ≤ c.params.sl
  start : y.state = .startSync → y.Collecting c ∧ y.processed = 0 ∧ y.runLevel = y.expectedValid
  sync : y.state = .sync →
    y.Collecting c ∧ y.expectedValid = true ∧ 1 ≤ y.processed ∧ y.runLevel = decide (y.processed % 2 = 0)
  done : y.state = .done →
    y.processed = c.params.syncLength ∧ c.params.rateLo ≤ y.detected.toNat ∧ y.detected.toNat ≤ c.params.rateHi

/-- The accumulator and message fields in each state of the Receiver Framer (10_state.md R40, R41). -/
structure RxFramer.Inv (x : RxFramer) : Prop where
  hunting : x.state = .stopped ∨ x.state = .syncHunt →
    x.buffer = 0#64 ∧ x.bitIndex = 0 ∧ x.length = 0#7 ∧ x.payload = 0#64 ∧ x.crc = 0#16
  waitStart : x.state = .waitStart →
    x.buffer.toNat < 2 ^ markerLen ∧ x.bitIndex ≤ waitStartLimit ∧ x.length = 0#7 ∧ x.payload = 0#64 ∧ x.crc = 0#16
  readLength : x.state = .readLength →
    x.buffer.toNat < 2 ^ x.bitIndex ∧ x.bitIndex < lengthBits ∧ x.length = 0#7 ∧ x.payload = 0#64 ∧ x.crc = 0#16
  readPayload : x.state = .readPayload →
    x.buffer.toNat < 2 ^ x.bitIndex ∧ x.bitIndex < x.length.toNat ∧ x.length.toNat ≤ maxPayload ∧
      x.payload = 0#64 ∧ x.crc = 0#16
  readCrc : x.state = .readCrc →
    x.buffer.toNat < 2 ^ x.bitIndex ∧ x.bitIndex < crcBits ∧ x.length.toNat ≤ maxPayload ∧
      x.payload.toNat < 2 ^ x.length.toNat ∧ x.crc = 0#16

/-- The receiver side: the parts' ranges, and which part may hold something in which state (10_state.md R43, R47, R48,
R49; 43_clock_synchronizer.md R316). -/
structure Receiver.Inv (c : Config) (r : Receiver) : Prop where
  rx : r.rx.Inv
  dm : r.dm.Inv c
  dmIdle : r.rx.state = .stopped ∨ r.rx.state = .syncHunt → r.dm = .reset
  cr : r.cr.reg < 2 ^ correlatorWidth c
  crHunting : r.cr.reg ≠ 0 → r.rx.state = .syncHunt ∧ r.rx.syncAttached = false
  sy : r.sy.Inv c
  syDetached : r.rx.syncAttached = false → r.sy = .reset
  syStopped : r.rx.state = .stopped → r.sy = .reset
  syHunting : r.rx.state = .syncHunt → r.sy.state ≠ .done
  syFrame : r.rx.state ≠ .stopped → r.rx.state ≠ .syncHunt → r.sy = .reset ∨ r.sy.state = .done
  periodStopped : r.rx.state = .stopped → r.rx.samplePeriod = 0#32
  periodHunting : r.rx.state = .syncHunt → r.rx.samplePeriod = nominalSampleUs c
  periodRunning : r.rx.state ≠ .stopped → 1 ≤ r.rx.samplePeriod.toNat

/-- What the collaborators hold follows the block's state (10_state.md R37, R43; 40_transmit_framer.md R170;
60_exceptions.md R371, R373, R374). -/
structure State.AgentsInv (s : State) : Prop where
  txIdle : s.tx.state = .idle → s.agents.txTrigger = .idle
  txWakeup : s.tx.state = .wakeup ∨ (s.tx.state = .syncPreamble ∧ s.tx.stepIndex = preambleLen) →
    s.agents.txTrigger = .oneShot wakeupHalfUs
  txField : s.tx.state ≠ .idle → s.tx.state ≠ .wakeup → ¬(s.tx.state = .syncPreamble ∧ s.tx.stepIndex = preambleLen) →
    s.agents.txTrigger = .recurring (nominalBitUs s.cfg)
  line : s.tx.state ≠ .idle → s.agents.line = some s.tx.line
  rxStopped : s.rcv.rx.state = .stopped → s.agents.rxTrigger = .idle
  rxRunning : s.rcv.rx.state ≠ .stopped → s.agents.rxTrigger = .recurring s.rcv.rx.samplePeriod

/-- The invariant of the machine. -/
structure State.Inv (s : State) : Prop where
  tx : s.tx.Inv
  rcv : s.rcv.Inv s.cfg
  agents : s.AgentsInv
  /-- The events of the last step end the history (60_exceptions.md R357). -/
  history : s.events <:+ s.history

end Sys2Proof.Machine
end

