-- ==== Sys2Proof/Certificates/Slice0/Obligations.lean ====
section
/-! DEFINITION. The statements about the block, from the numbered rules of spec/. Each holds for every elaborated
configuration (notes/assumptions/1.md): none rests on TC1, and none on a value the model chose except where its
docstring names the log entry. A clause that rests on a decision of 92_eei_decisions.md names it. A result is written
with `State.after` and its companions, which spell the whole next state: what they do not name is unchanged. -/

open Sys2Proof Sys2Proof.Machine

/-! ## Encoding -/

/-- Words written out from 30_encoding.md R101, R104 (95_test_vectors.md V40 to V53; the encoding is D2, D3). -/
def Obligations.DecodesWordsWrittenFromTheSpec : Prop :=
  decode 0x00000000_00000000_00000000_00000001#128 = .ok .reset ∧
  decode 0x00000000_00000005_0000beef_00030002#128 = .ok (.txSend 5#64 3#7 0xBEEF#16) ∧
  decode 0xffffffff_ffffffff_0000ffff_00400002#128 = .ok (.txSend 0xFFFFFFFFFFFFFFFF#64 64#7 0xFFFF#16) ∧
  decode 0x00000000_00000000_00000000_00000003#128 = .ok .txTick ∧
  decode 0x00000000_00000000_00000000_00000004#128 = .ok .txCancel ∧
  decode 0x00000000_00000000_00000000_00000005#128 = .ok .rxStart ∧
  decode 0x00000000_00000000_00000000_00000006#128 = .ok .rxStop ∧
  decode 0x00000000_00000000_12345678_00000107#128 = .ok (.rxSample true 0x12345678#32) ∧
  decode 0x00000000_00000000_00000000_00000008#128 = .ok .rxAttachSync ∧
  decode 0x00000000_00000000_00000000_00000009#128 = .ok .rxDetachSync ∧
  decode 0x00000000_00000000_00000000_00000000#128 = .error (.undefinedOpcode 0#4) ∧
  decode 0x00000000_00000000_00000000_00410002#128 = .error (.sendLengthOver64 65#7)

/-- Decoding the word of a well-formed command gives the command back, every operand at every value (D2, D3). -/
def Obligations.DecodeInvertsEncode : Prop :=
  ∀ i : Instr, i.wellFormed = true → decode (encode i) = .ok i

/-- A word that spells a command is the word of that command: no two words spell one command, and no bit is ignored. -/
def Obligations.EncodeInvertsDecode : Prop :=
  ∀ (c : CommandWord) (i : Instr), decode c = .ok i → encode i = c ∧ i.wellFormed = true

/-- "A word `c` spells command `X` exactly when `(c AND mask_X) = match_X`" (30_encoding.md R104, D3), but for the
TX_SEND words of R106. -/
def Obligations.DecodesExactlyTheRowsOfTheOpcodeMap : Prop :=
  ∀ c : CommandWord,
    (∀ i, decode c = .ok i → inRowOf c i = true) ∧
    (∀ j, inRowOf c j = true →
      (∃ i, decode c = .ok i ∧ maskOf i = maskOf j ∧ matchOf i = matchOf j) ∨
      (matchOf j = 2#128 ∧ 64 < c.len.toNat ∧ decode c = .error (.sendLengthOver64 c.len)))

/-- A step refuses an undefined OPC, any non-zero reserved bit, and a TX_SEND with LEN over 64 (30_encoding.md R105,
R106; D4, D14). Which of two grounds a word shows when it has both is the model's choice (notes/assumptions/9.md). -/
def Obligations.RefusesWordsThatSpellNoCommand : Prop :=
  ∀ (s : State) (c : CommandWord) (rest : List CommandWord), s.inbox = c :: rest →
    (c.opc = 0#4 ∨ 10 ≤ c.opc.toNat → step s = .refused (.spellsNoCommand (.undefinedOpcode c.opc))) ∧
    (c.opc = 1#4 ∨ c.opc = 3#4 ∨ c.opc = 4#4 ∨ c.opc = 5#4 ∨ c.opc = 6#4 ∨ c.opc = 8#4 ∨ c.opc = 9#4 →
      (∃ k, 4 ≤ k ∧ k < 128 ∧ c.getLsbD k = true) →
      step s = .refused (.spellsNoCommand (.reservedBits c))) ∧
    (c.opc = 2#4 →
      (∃ k, ((4 ≤ k ∧ k ≤ 15) ∨ (23 ≤ k ∧ k ≤ 31) ∨ (48 ≤ k ∧ k ≤ 63)) ∧ c.getLsbD k = true) →
      step s = .refused (.spellsNoCommand (.reservedBits c))) ∧
    (c.opc = 7#4 →
      (∃ k, ((4 ≤ k ∧ k ≤ 7) ∨ (9 ≤ k ∧ k ≤ 31) ∨ (64 ≤ k ∧ k ≤ 127)) ∧ c.getLsbD k = true) →
      step s = .refused (.spellsNoCommand (.reservedBits c))) ∧
    (c.opc = 2#4 →
      (∀ k, ((4 ≤ k ∧ k ≤ 15) ∨ (23 ≤ k ∧ k ≤ 31) ∨ (48 ≤ k ∧ k ≤ 63)) → c.getLsbD k = false) →
      64 < c.len.toNat → step s = .refused (.spellsNoCommand (.sendLengthOver64 c.len)))

/-- Byte `k` of a word is bits `[8k+7:8k]`, 32-bit word `k` bits `[32k+31:32k]`, and the carriage loses nothing
(20_memory.md R85, D52). That a byte string which is not one 16-byte word (30_encoding.md R103) is refused, and under the
name `notOneWord`, is the model's choice (notes/assumptions/9.md). -/
def Obligations.WordsAreCarriedLittleEndian : Prop :=
  (∀ (c : CommandWord) (k i : Nat), k < 16 → i < 8 →
    (bytesOf c)[k]?.map (fun b => b.getLsbD i) = some (c.getLsbD (8 * k + i))) ∧
  (∀ (c : CommandWord) (k i : Nat), k < 4 → i < 32 → (group32 c k).getLsbD i = c.getLsbD (32 * k + i)) ∧
  (∀ c : CommandWord, wordOfBytes (bytesOf c) = c) ∧
  (∀ bs : List Byte, bs.length = 16 → bytesOf (wordOfBytes bs) = bs) ∧
  (∀ bs : List Byte, bs.length ≠ 16 → decodeBytes bs = .error (.notOneWord bs.length))

/-- No two events share a word, and EVC is 1 to 10 (30_encoding.md R120, D6). -/
def Obligations.EventWordsAreDistinct : Prop :=
  (∀ e f : Event, e.word = f.word → e = f) ∧
  (∀ e : Event, 1 ≤ (e.word.extractLsb' 0 4).toNat ∧ (e.word.extractLsb' 0 4).toNat ≤ 10)

/-- The example words of 30_encoding.md R120 and 95_test_vectors.md V56 to V67 (D6, D38). -/
def Obligations.EventWordsOfTheSpec : Prop :=
  (Event.setSignal true).word = 0x00000000_00000000_00000000_00000101#128 ∧
  (Event.txSetOneShot 500#32).word = 0x00000000_00000000_000001f4_00000002#128 ∧
  (Event.txSetRecurring 1000#32).word = 0x00000000_00000000_000003e8_00000003#128 ∧
  Event.txCancelTrigger.word = 4#128 ∧
  Event.txComplete.word = 5#128 ∧
  (Event.rxSetRecurring 100#32).word = 0x00000000_00000000_00000064_00000006#128 ∧
  Event.rxCancelTrigger.word = 7#128 ∧
  (Event.rxMessage 12345#64 14#7 0x2222#16).word = 0x00000000_00003039_00002222_000e0008#128 ∧
  (Event.rxSynchronized 1200#32).word = 0x00000000_00000000_000004b0_00000009#128 ∧
  (Event.fault .sampling).word = 0x1000a#128 ∧ (Event.fault .frameInvalid).word = 0x2000a#128 ∧
  (Event.fault .syncLost).word = 0x3000a#128 ∧ (Event.fault .syncRun).word = 0x4000a#128 ∧
  (Event.fault .syncRate).word = 0x5000a#128

/-- The fields of `STATUS`, the number of every state in them, and its reserved bits (30_encoding.md R131, D7). The two counters fit their 7-bit fields in
every state of the invariant (InvariantKeptByEveryStep). -/
def Obligations.StatusWordFields : Prop :=
  ∀ s : State, s.tx.stepIndex < 128 → s.rcv.rx.bitIndex < 128 →
    s.statusWord.extractLsb' 0 3 =
      (match s.tx.state with
      | .idle => 0#3
      | .wakeup => 1#3
      | .syncPreamble => 2#3
      | .startMarker => 3#3
      | .length => 4#3
      | .payload => 5#3
      | .crc => 6#3) ∧
    s.statusWord.getLsbD 3 = s.tx.line ∧
    s.statusWord.extractLsb' 4 3 =
      (match s.rcv.rx.state with
      | .stopped => 0#3
      | .syncHunt => 1#3
      | .waitStart => 2#3
      | .readLength => 3#3
      | .readPayload => 4#3
      | .readCrc => 5#3) ∧
    s.statusWord.getLsbD 7 = s.rcv.rx.syncAttached ∧
    s.statusWord.extractLsb' 8 2 =
      (match s.rcv.sy.state with
      | .waitSync => 0#2
      | .startSync => 1#2
      | .sync => 2#2
      | .done => 3#2) ∧
    (s.statusWord.extractLsb' 12 7).toNat = s.tx.stepIndex ∧
    (s.statusWord.extractLsb' 20 7).toNat = s.rcv.rx.bitIndex ∧
    s.statusWord.extractLsb' 10 2 = 0#2 ∧ s.statusWord.getLsbD 19 = false ∧ s.statusWord.extractLsb' 27 5 = 0#5

/-- A configuration is elaborated exactly when the constraints of 00_scope.md R13 hold of it (D8). -/
def Obligations.ElaboratesExactlyTheWellFormedParameters : Prop :=
  ∀ p : Params,
    (p.elaborate.map (fun c => c.params) = some p ↔
      3 ≤ p.n ∧ 2 * p.st < p.n - 2 ∧ p.n ≤ p.nominalBitPeriodUs ∧ p.nominalBitPeriodUs < 2 ^ 32 ∧
      2 ≤ p.k ∧ p.k ≤ 36 ∧ 1 ≤ p.sl ∧ p.sl ≤ p.sh ∧ 2 ≤ p.syncLength ∧ p.syncLength % 2 = 0 ∧
      p.n ≤ p.rateLo ∧ p.rateLo ≤ p.rateHi ∧ p.rateHi < 2 ^ 32 ∧ (p.m = 1 ∨ p.m = 2)) ∧
    (p.elaborate = none ∨ p.elaborate.map (fun c => c.params) = some p)

/-! ## A step -/

/-- A step takes the next command word and runs the command it spells (00_scope.md R19, 20_memory.md R89); with no
command delivered it does nothing, which is the model's choice (notes/assumptions/3.md). -/
def Obligations.StepRunsTheDecodedCommand : Prop :=
  (∀ (s : State) (c : CommandWord) (rest : List CommandWord) (i : Instr),
    s.inbox = c :: rest → decode c = .ok i → step s = exec i { s with inbox := rest }) ∧
  (∀ s : State, s.inbox = [] → step s = .next s)

/-- "every command has a step in every state" (60_exceptions.md R359, R364, R109): it answers a next state with the
configuration and the command stream as before, its events at the end of the history, and as its 1-bit response `RESP`
1 (BUSY) exactly for a TX_SEND in an active session, else 0 (OK) (D5, D49). -/
def Obligations.EveryWellFormedCommandCompletes : Prop :=
  ∀ (i : Instr) (s : State), i.wellFormed = true →
    ∃ t, exec i s = .next t ∧ t.cfg = s.cfg ∧ t.inbox = s.inbox ∧ t.history = s.history ++ t.events ∧
      ((∃ payload len crc, i = .txSend payload len crc) ∧ s.tx.state ≠ .idle →
        t.resp = some .busy ∧ t.resp.map Resp.bit = some 1#1) ∧
      (¬((∃ payload len crc, i = .txSend payload len crc) ∧ s.tx.state ≠ .idle) →
        t.resp = some .ok ∧ t.resp.map Resp.bit = some 0#1)

/-! ## Transmitter Framer -/

/-- TX_SEND in IDLE captures the message and drives the first wakeup half (40_transmit_framer.md R151, R160; D15, D16,
D50). -/
def Obligations.TxSendStartsTheWakeup : Prop :=
  ∀ (s : State) (payload : BitVec 64) (len : BitVec 7) (crc : BitVec 16),
    s.tx.state = .idle → len.toNat ≤ 64 →
    exec (.txSend payload len crc) s = .next (s.after
      { state := .wakeup, stepIndex := 1, payload := payload, length := len, crc := crc, line := true } s.rcv
      { txTrigger := .oneShot 500#32, rxTrigger := s.agents.rxTrigger, line := some true } .ok
      [.setSignal true, .txSetOneShot 500#32])

/-- TX_SEND in an active session responds BUSY, changes nothing and emits nothing (40_transmit_framer.md R169; D49); with
LEN over 64 it is refused in every state (30_encoding.md R106; D14). -/
def Obligations.TxSendBusyOrOver64ChangesNothing : Prop :=
  ∀ (s : State) (payload : BitVec 64) (len : BitVec 7) (crc : BitVec 16),
    (s.tx.state ≠ .idle → len.toNat ≤ 64 →
      exec (.txSend payload len crc) s = .next (s.after s.tx s.rcv s.agents .busy [])) ∧
    (64 < len.toNat → exec (.txSend payload len crc) s = .refused (.spellsNoCommand (.sendLengthOver64 len)))

/-- TX_SEND answers BUSY exactly when `STATUS[2:0]` is not 0 (30_encoding.md R131; D5, D7). -/
def Obligations.BusyExactlyWhenStatusShowsASession : Prop :=
  ∀ (s t : State) (payload : BitVec 64) (len : BitVec 7) (crc : BitVec 16),
    exec (.txSend payload len crc) s = .next t →
    (t.resp = some .busy ↔ s.statusWord.extractLsb' 0 3 ≠ 0#3)

/-- The TX_TICK of the second wakeup half (40_transmit_framer.md R160; D15): low, another one-shot, SYNC_PREAMBLE. -/
def Obligations.TxTickDrivesTheSecondWakeupHalf : Prop :=
  ∀ s : State, s.tx.state = .wakeup → s.tx.stepIndex = 1 →
    exec .txTick s = .next (s.after
      { s.tx with state := .syncPreamble, stepIndex := 36, line := false } s.rcv
      { s.agents with txTrigger := .oneShot 500#32, line := some false } .ok
      [.setSignal false, .txSetOneShot 500#32])

/-- A TX_TICK inside a field (40_transmit_framer.md R155 to R157; 30_encoding.md R141, R142; D16): the step counter
goes down by one, the bit at that index is driven, and only the first preamble bit arms the recurring trigger. -/
def Obligations.TxTickDrivesTheFieldBit : Prop :=
  ∀ (s : State) (k : Nat), s.tx.state ≠ .idle → s.tx.state ≠ .wakeup →
    s.tx.stepIndex = k + 1 → 1 ≤ k → s.tx.stepIndex ≤ s.tx.fieldWidth →
    ∃ b : Bool,
      (s.tx.state = .syncPreamble → b = decide (k % 2 = 1)) ∧
      (s.tx.state = .startMarker → b = (0xA39#12).getLsbD k) ∧
      (s.tx.state = .length → b = s.tx.length.getLsbD k) ∧
      (s.tx.state = .payload → b = s.tx.payload.getLsbD k) ∧
      (s.tx.state = .crc → b = s.tx.crc.getLsbD k) ∧
      (s.tx.state = .syncPreamble → k = 35 →
        exec .txTick s = .next (s.after { s.tx with stepIndex := k, line := b } s.rcv
          { s.agents with txTrigger := .recurring (nominalBitUs s.cfg), line := some b } .ok
          [.setSignal b, .txSetRecurring (nominalBitUs s.cfg)])) ∧
      (¬(s.tx.state = .syncPreamble ∧ k = 35) →
        exec .txTick s = .next (s.after { s.tx with stepIndex := k, line := b } s.rcv
          { s.agents with txTrigger := s.agents.txTrigger.fire, line := some b } .ok [.setSignal b]))

/-- The exits of SYNC_PREAMBLE, START_MARKER and PAYLOAD (40_transmit_framer.md R161, R162, R164): bit 0 of the field,
then the next field with the step counter at its width. -/
def Obligations.TxFieldExitsLoadTheNextWidth : Prop :=
  ∀ s : State, s.tx.stepIndex = 1 →
    (s.tx.state = .syncPreamble → exec .txTick s = .next (s.after
      { s.tx with state := .startMarker, stepIndex := 12, line := false } s.rcv
      { s.agents with txTrigger := s.agents.txTrigger.fire, line := some false } .ok [.setSignal false])) ∧
    (s.tx.state = .startMarker → exec .txTick s = .next (s.after
      { s.tx with state := .length, stepIndex := 7, line := true } s.rcv
      { s.agents with txTrigger := s.agents.txTrigger.fire, line := some true } .ok [.setSignal true])) ∧
    (s.tx.state = .payload → exec .txTick s = .next (s.after
      { s.tx with state := .crc, stepIndex := 16, line := s.tx.payload.getLsbD 0 } s.rcv
      { s.agents with txTrigger := s.agents.txTrigger.fire, line := some (s.tx.payload.getLsbD 0) } .ok
      [.setSignal (s.tx.payload.getLsbD 0)]))

/-- The exit of LENGTH (40_transmit_framer.md R163), which passes an empty PAYLOAD (R165, D17). -/
def Obligations.TxLengthExitPassesAnEmptyPayload : Prop :=
  ∀ s : State, s.tx.stepIndex = 1 → s.tx.state = .length →
    (s.tx.length ≠ 0#7 → exec .txTick s = .next (s.after
      { s.tx with state := .payload, stepIndex := s.tx.length.toNat, line := s.tx.length.getLsbD 0 } s.rcv
      { s.agents with txTrigger := s.agents.txTrigger.fire, line := some (s.tx.length.getLsbD 0) } .ok
      [.setSignal (s.tx.length.getLsbD 0)])) ∧
    (s.tx.length = 0#7 → exec .txTick s = .next (s.after
      { s.tx with state := .crc, stepIndex := 16, line := false } s.rcv
      { s.agents with txTrigger := s.agents.txTrigger.fire, line := some false } .ok [.setSignal false]))

/-- The exit of CRC (40_transmit_framer.md R168; D16, D20): the last bit, the cancel, TX_COMPLETE; IDLE. -/
def Obligations.TxCrcExitCompletesTheFrame : Prop :=
  ∀ s : State, s.tx.stepIndex = 1 → s.tx.state = .crc →
    exec .txTick s = .next (s.after
      { s.tx with state := .idle, stepIndex := 0, line := s.tx.crc.getLsbD 0 } s.rcv
      { s.agents with txTrigger := .idle, line := some (s.tx.crc.getLsbD 0) } .ok
      [.setSignal (s.tx.crc.getLsbD 0), .txCancelTrigger, .txComplete])

/-- Every field goes out most significant bit first and hands over to the next (40_transmit_framer.md R161 to R164, R168;
30_encoding.md R141 to R145): from the entry of a field, as many TX_TICKs as it is wide drive exactly its bits and leave
the next field with its step counter loaded, an empty PAYLOAD passed (R165, D17), the CRC followed by the cancel,
TX_COMPLETE and IDLE (D16, D20). The preamble's trigger request (R157, D16) is the only other event of these fields. -/
def Obligations.FieldsAreSentMostSignificantBitFirst : Prop :=
  ∀ s : State,
    (s.tx.state = .syncPreamble → s.tx.stepIndex = 36 → ∃ t es,
      runCommands (List.replicate 36 .txTick) s = .next t ∧ t.history = s.history ++ es ∧
      es.filterMap Event.level? = (List.range 36).map (fun i => decide (i % 2 = 0)) ∧
      es.filter (fun e => e.level?.isNone) = [.txSetRecurring (nominalBitUs s.cfg)] ∧
      t.tx.state = .startMarker ∧ t.tx.stepIndex = 12 ∧ t.rcv = s.rcv) ∧
    (s.tx.state = .startMarker → s.tx.stepIndex = 12 → ∃ t es,
      runCommands (List.replicate 12 .txTick) s = .next t ∧ t.history = s.history ++ es ∧
      es = [true, false, true, false, false, false, true, true, true, false, false, true].map Event.setSignal ∧
      t.tx.state = .length ∧ t.tx.stepIndex = 7 ∧ t.rcv = s.rcv) ∧
    (s.tx.state = .length → s.tx.stepIndex = 7 → ∃ t es,
      runCommands (List.replicate 7 .txTick) s = .next t ∧ t.history = s.history ++ es ∧
      es = ((List.range 7).reverse.map s.tx.length.getLsbD).map Event.setSignal ∧
      (s.tx.length ≠ 0#7 → t.tx.state = .payload ∧ t.tx.stepIndex = s.tx.length.toNat) ∧
      (s.tx.length = 0#7 → t.tx.state = .crc ∧ t.tx.stepIndex = 16) ∧ t.rcv = s.rcv) ∧
    (s.tx.state = .payload → s.tx.stepIndex = s.tx.length.toNat → 1 ≤ s.tx.length.toNat → s.tx.length.toNat ≤ 64 →
      ∃ t es,
      runCommands (List.replicate s.tx.length.toNat .txTick) s = .next t ∧ t.history = s.history ++ es ∧
      es = ((List.range s.tx.length.toNat).reverse.map s.tx.payload.getLsbD).map Event.setSignal ∧
      t.tx.state = .crc ∧ t.tx.stepIndex = 16 ∧ t.rcv = s.rcv) ∧
    (s.tx.state = .crc → s.tx.stepIndex = 16 → ∃ t es,
      runCommands (List.replicate 16 .txTick) s = .next t ∧ t.history = s.history ++ es ∧
      es = ((List.range 16).reverse.map s.tx.crc.getLsbD).map Event.setSignal ++ [.txCancelTrigger, .txComplete] ∧
      t.tx.state = .idle ∧ t.tx.stepIndex = 0 ∧ t.tx.line = s.tx.crc.getLsbD 0 ∧ t.rcv = s.rcv)

/-- TX_TICK in IDLE does nothing (40_transmit_framer.md R159; D18): the block and the line are as before. -/
def Obligations.TxTickIdleDoesNothing : Prop :=
  ∀ s : State, s.tx.state = .idle →
    exec .txTick s = .next (s.after s.tx s.rcv { s.agents with txTrigger := s.agents.txTrigger.fire } .ok [])

/-- TX_CANCEL ends an active session with the line as it is, and does nothing in IDLE (40_transmit_framer.md R153;
D19). -/
def Obligations.TxCancelEndsTheSession : Prop :=
  ∀ s : State,
    (s.tx.state ≠ .idle → exec .txCancel s = .next (s.after
      { s.tx with state := .idle, stepIndex := 0 } s.rcv { s.agents with txTrigger := .idle } .ok [.txCancelTrigger])) ∧
    (s.tx.state = .idle → exec .txCancel s = .next (s.after s.tx s.rcv s.agents .ok []))

/-- One whole frame (40_transmit_framer.md R158, R166 to R168, R170; 30_encoding.md R140 to R146; D15 to D17, D20):
TX_SEND and `72 + length` TX_TICKs drive the wakeup levels and then exactly the frame's bits, with the trigger requests
of R170 and no other event, and end in IDLE with the line at the last CRC bit. The clause on the agents is the contract
of D21 as the model holds it (notes/assumptions/6.md). -/
def Obligations.AWholeFrameIsSent : Prop :=
  ∀ (s : State) (payload : BitVec 64) (len : BitVec 7) (crc : BitVec 16),
    s.tx.state = .idle → len.toNat ≤ 64 →
    ∃ t es,
      runCommands (.txSend payload len crc :: List.replicate (72 + len.toNat) .txTick) s = .next t ∧
      t.history = s.history ++ es ∧
      es.filterMap Event.level? = [true, false] ++ frameBits payload len crc ∧
      es.filter (fun e => e.level?.isNone) =
        [.txSetOneShot 500#32, .txSetOneShot 500#32, .txSetRecurring (nominalBitUs s.cfg), .txCancelTrigger,
          .txComplete] ∧
      t.events = [.setSignal (crc.getLsbD 0), .txCancelTrigger, .txComplete] ∧
      t.tx = { state := .idle, stepIndex := 0, payload := payload, length := len, crc := crc,
               line := crc.getLsbD 0 } ∧
      t.rcv = s.rcv ∧ t.cfg = s.cfg ∧
      t.agents = { txTrigger := .idle, rxTrigger := s.agents.rxTrigger, line := some (crc.getLsbD 0) }

/-! ## Receiver Framer: commands -/

/-- RX_START (42_receive_framer.md R233; D22, D36): from STOPPED a fresh hunt at the nominal period, with the strategy
kept; otherwise nothing. -/
def Obligations.RxStartOpensTheHunt : Prop :=
  ∀ s : State,
    (s.rcv.rx.state = .stopped → exec .rxStart s = .next (s.after s.tx
      (.freshHunt s.cfg s.rcv.rx.syncAttached) { s.agents with rxTrigger := .recurring (nominalSampleUs s.cfg) } .ok
      [.rxSetRecurring (nominalSampleUs s.cfg)])) ∧
    (s.rcv.rx.state ≠ .stopped → exec .rxStart s = .next (s.after s.tx s.rcv s.agents .ok []))

/-- RX_STOP (42_receive_framer.md R234; D36): the trigger cancelled and everything but the strategy reset; when STOPPED
nothing. -/
def Obligations.RxStopAbandonsReception : Prop :=
  ∀ s : State,
    (s.rcv.rx.state ≠ .stopped → exec .rxStop s = .next (s.after s.tx
      { rx := { RxFramer.reset with syncAttached := s.rcv.rx.syncAttached }, dm := .reset, cr := .reset, sy := .reset }
      { s.agents with rxTrigger := .idle } .ok [.rxCancelTrigger])) ∧
    (s.rcv.rx.state = .stopped → exec .rxStop s = .next (s.after s.tx s.rcv s.agents .ok []))

/-- RX_ATTACH_SYNC and RX_DETACH_SYNC (42_receive_framer.md R236, R237; D37): the strategy and a fresh synchronizer
session; the correlator is cleared in SYNC_HUNT alone. -/
def Obligations.RxStrategyCommandsSelectTheHunt : Prop :=
  ∀ s : State,
    (s.rcv.rx.state = .syncHunt →
      exec .rxAttachSync s = .next (s.after s.tx
        { s.rcv with rx := { s.rcv.rx with syncAttached := true }, sy := .reset, cr := .reset } s.agents .ok []) ∧
      exec .rxDetachSync s = .next (s.after s.tx
        { s.rcv with rx := { s.rcv.rx with syncAttached := false }, sy := .reset, cr := .reset } s.agents .ok [])) ∧
    (s.rcv.rx.state ≠ .syncHunt →
      exec .rxAttachSync s = .next (s.after s.tx
        { s.rcv with rx := { s.rcv.rx with syncAttached := true }, sy := .reset } s.agents .ok []) ∧
      exec .rxDetachSync s = .next (s.after s.tx
        { s.rcv with rx := { s.rcv.rx with syncAttached := false }, sy := .reset } s.agents .ok []))

/-- A sample nobody takes does nothing: RX_SAMPLE while STOPPED (42_receive_framer.md R239; D44), and in the dynamic hunt
with the synchronizer in DONE (43_clock_synchronizer.md R316), which no state of the invariant shows. -/
def Obligations.SamplesWithoutAConsumerDoNothing : Prop :=
  ∀ (s : State) (lvl : Level) (ts : Micros),
    (s.rcv.rx.state = .stopped → exec (.rxSample lvl ts) s = .next (s.afterSample s.rcv [])) ∧
    (s.rcv.rx.state = .syncHunt → s.rcv.rx.syncAttached = true → s.rcv.sy.state = .done →
      exec (.rxSample lvl ts) s = .next (s.afterSample s.rcv []))

/-! ## Receiver Framer: the static hunt -/

/-- A sample of the static hunt (42_receive_framer.md R251; D11, D25): it is shifted into the correlator; on equality
with REF, WAIT_START with the accumulator, the demodulator and the correlator reset, and no event. -/
def Obligations.StaticHuntShiftsAndMatches : Prop :=
  ∀ (s : State) (lvl : Level) (ts : Micros) (reg : Nat),
    s.rcv.rx.state = .syncHunt → s.rcv.rx.syncAttached = false →
    reg = (2 * s.rcv.cr.reg + (if lvl then 1 else 0)) % 2 ^ (s.cfg.params.k * s.cfg.params.n) →
    (reg ≠ reference s.cfg →
      exec (.rxSample lvl ts) s = .next (s.afterSample { s.rcv with cr := { reg := reg } } [])) ∧
    (reg = reference s.cfg →
      exec (.rxSample lvl ts) s = .next (s.afterSample
        { s.rcv with rx := { s.rcv.rx with state := .waitStart, buffer := 0#64, bitIndex := 0 },
                     dm := .reset, cr := .reset } []))

/-- The correlator matches exactly on `K` groups of `N` equal samples alternating 1, 0, ... beginning with 1, whatever
it held before (42_receive_framer.md R250, R252; D11). -/
def Obligations.CorrelatorMatchesOnlyTheOversampledPreamble : Prop :=
  ∀ (c : Config) (before : Nat) (ls : List Level), ls.length = c.params.k * c.params.n →
    (ls.foldl (shiftInNat (correlatorWidth c)) before = reference c ↔
      ls = (List.range c.params.k).flatMap (fun i => List.replicate c.params.n (decide (i % 2 = 0))))

/-! ## Bit Demodulator and frame samples -/

/-- Inside a bit cell (41_bit_demodulator.md R202, R203; D23): the sample of slot 0 is discarded, the samples of slots 1
to `N-2` add to one tally each, and nothing else of the state changes. -/
def Obligations.FrameSampleInsideACell : Prop :=
  ∀ (s : State) (lvl : Level) (ts : Micros), s.rcv.rx.state.inFrame = true →
    (s.rcv.dm.slot = 0 → exec (.rxSample lvl ts) s = .next (s.afterSample
      { s.rcv with dm := { s.rcv.dm with slot := 1 } } [])) ∧
    (1 ≤ s.rcv.dm.slot → s.rcv.dm.slot ≤ s.cfg.params.n - 2 → lvl = true →
      exec (.rxSample lvl ts) s = .next (s.afterSample
        { s.rcv with dm := { s.rcv.dm with slot := s.rcv.dm.slot + 1, highCount := s.rcv.dm.highCount + 1 } } [])) ∧
    (1 ≤ s.rcv.dm.slot → s.rcv.dm.slot ≤ s.cfg.params.n - 2 → lvl = false →
      exec (.rxSample lvl ts) s = .next (s.afterSample
        { s.rcv with dm := { s.rcv.dm with slot := s.rcv.dm.slot + 1, lowCount := s.rcv.dm.lowCount + 1 } } []))

/-- A sampling fault (41_bit_demodulator.md R205, 42_receive_framer.md R238, R240; D22, D24): neither tally reaches
`T` at slot `N-1`, the frame is abandoned and the hunt begins again. -/
def Obligations.SamplingFaultAbandonsTheFrame : Prop :=
  ∀ (s : State) (lvl : Level) (ts : Micros), s.rcv.rx.state.inFrame = true →
    s.rcv.dm.slot = s.cfg.params.n - 1 →
    s.rcv.dm.highCount < s.cfg.params.n - s.cfg.params.st - 2 →
    s.rcv.dm.lowCount < s.cfg.params.n - s.cfg.params.st - 2 →
    exec (.rxSample lvl ts) s = .next (s.afterFrame (.fault .sampling))

/-- Slots 1 to `N-2` are tallied, slot 0 and slot `N-1` are not, and slot `N-1` decides (41_bit_demodulator.md R201,
R202, R204): the bit is fixed when its tally reaches `N - SAMPLING_TOLERANCE - 2`, in the step of that slot, with the
counters reset; a sampling fault when neither does (R205); the other slots give no bit yet. The slot counter, the
discarded sample of slot `N-1` and `last_bit` are the spec's decision D23. -/
def Obligations.TheFinalSlotDecides : Prop :=
  ∀ (c : Config) (d : Demod) (lvl : Level), d.Inv c →
    (d.slot = 0 → d.sample c lvl = ({ d with slot := 1 }, .none)) ∧
    (1 ≤ d.slot → d.slot ≤ c.params.n - 2 →
      (lvl = true → d.sample c lvl = ({ d with slot := d.slot + 1, highCount := d.highCount + 1 }, .none)) ∧
      (lvl = false → d.sample c lvl = ({ d with slot := d.slot + 1, lowCount := d.lowCount + 1 }, .none))) ∧
    (d.slot = c.params.n - 1 →
      (c.params.n - c.params.st - 2 ≤ d.highCount → d.sample c lvl = (⟨0, 0, 0, true⟩, .bit true)) ∧
      (c.params.n - c.params.st - 2 ≤ d.lowCount → d.sample c lvl = (⟨0, 0, 0, false⟩, .bit false)) ∧
      (d.highCount < c.params.n - c.params.st - 2 → d.lowCount < c.params.n - c.params.st - 2 →
        d.sample c lvl = (⟨0, 0, 0, d.lastBit⟩, .fault)))

/-- The majority vote over one bit cell (41_bit_demodulator.md R204, R207): with `k` of the `N-2` tallied samples
inverted, `v` when `k <= ST`, a fault when `ST < k < N-2-ST`, `1-v` otherwise, whatever slots 0 and `N-1` carry; the
cell leaves the tallies and the slot 0. -/
def Obligations.MajorityVoteOfABitCell : Prop :=
  ∀ (c : Config) (v last : Bool) (cell : List Level) (k : Nat), cell.length = c.params.n →
    k = ((cell.drop 1).take (c.params.n - 2)).countP (fun l => l != v) →
    (k ≤ c.params.st → demodRun c cell ⟨0, 0, 0, last⟩ .none = (⟨0, 0, 0, v⟩, .bit v)) ∧
    (c.params.st < k → k < c.params.n - 2 - c.params.st →
      demodRun c cell ⟨0, 0, 0, last⟩ .none = (⟨0, 0, 0, last⟩, .fault)) ∧
    (c.params.n - 2 - c.params.st ≤ k → demodRun c cell ⟨0, 0, 0, last⟩ .none = (⟨0, 0, 0, !v⟩, .bit (!v)))

/-! ## Receiver Framer: the field states -/

/-- A recovered bit in WAIT_START (42_receive_framer.md R261, R262; D27, D38): the 12-bit window takes the bit; a match
moves to READ_LENGTH; the 49th bit without one loses synchronization. -/
def Obligations.WaitStartBitShiftsTheMarkerWindow : Prop :=
  ∀ (s : State) (b : Bool) (lvl : Level) (ts : Micros) (w : Nat),
    s.rcv.rx.state = .waitStart → s.rcv.dm.decides s.cfg b →
    w = (2 * s.rcv.rx.buffer.toNat + (if b then 1 else 0)) % 2 ^ 12 →
    (w = 0xA39 → exec (.rxSample lvl ts) s = .next (s.afterSample
      { s.rcv with rx := { s.rcv.rx with state := .readLength, buffer := 0#64, bitIndex := 0 },
                   dm := .decided b } [])) ∧
    (w ≠ 0xA39 → s.rcv.rx.bitIndex < 48 → exec (.rxSample lvl ts) s = .next (s.afterSample
      { s.rcv with rx := { s.rcv.rx with buffer := BitVec.ofNat 64 w, bitIndex := s.rcv.rx.bitIndex + 1 },
                   dm := .decided b } [])) ∧
    (w ≠ 0xA39 → 48 ≤ s.rcv.rx.bitIndex → exec (.rxSample lvl ts) s = .next (s.afterFrame (.fault .syncLost)))

/-- A recovered bit in READ_LENGTH (42_receive_framer.md R263, R264): seven bits, most significant first; over 64 the
frame is invalid; otherwise the length is stored and READ_PAYLOAD follows, or READ_CRC with a payload of 0 when the
length is 0 (the zero-length clause is D17). The premise on the buffer holds in every state of the invariant. -/
def Obligations.ReadLengthBitChecksTheLength : Prop :=
  ∀ (s : State) (b : Bool) (lvl : Level) (ts : Micros) (v : Nat),
    s.rcv.rx.state = .readLength → s.rcv.dm.decides s.cfg b → s.rcv.rx.buffer.toNat < 2 ^ 63 →
    v = 2 * s.rcv.rx.buffer.toNat + (if b then 1 else 0) →
    (s.rcv.rx.bitIndex + 1 ≠ 7 → exec (.rxSample lvl ts) s = .next (s.afterSample
      { s.rcv with rx := { s.rcv.rx with buffer := BitVec.ofNat 64 v, bitIndex := s.rcv.rx.bitIndex + 1 },
                   dm := .decided b } [])) ∧
    (s.rcv.rx.bitIndex + 1 = 7 → 64 < v →
      exec (.rxSample lvl ts) s = .next (s.afterFrame (.fault .frameInvalid))) ∧
    (s.rcv.rx.bitIndex + 1 = 7 → 1 ≤ v → v ≤ 64 → exec (.rxSample lvl ts) s = .next (s.afterSample
      { s.rcv with rx := { s.rcv.rx with state := .readPayload, length := BitVec.ofNat 7 v, buffer := 0#64,
                                         bitIndex := 0 },
                   dm := .decided b } [])) ∧
    (s.rcv.rx.bitIndex + 1 = 7 → v = 0 → exec (.rxSample lvl ts) s = .next (s.afterSample
      { s.rcv with rx := { s.rcv.rx with state := .readCrc, length := 0#7, payload := 0#64, buffer := 0#64,
                                         bitIndex := 0 },
                   dm := .decided b } []))

/-- A recovered bit in READ_PAYLOAD (42_receive_framer.md R266): exactly `rx.length` bits, then the payload is stored
and READ_CRC follows. -/
def Obligations.ReadPayloadBitFillsThePayload : Prop :=
  ∀ (s : State) (b : Bool) (lvl : Level) (ts : Micros) (v : BitVec 64),
    s.rcv.rx.state = .readPayload → s.rcv.dm.decides s.cfg b →
    v = BitVec.ofNat 64 (2 * s.rcv.rx.buffer.toNat + (if b then 1 else 0)) →
    (s.rcv.rx.bitIndex + 1 ≠ s.rcv.rx.length.toNat → exec (.rxSample lvl ts) s = .next (s.afterSample
      { s.rcv with rx := { s.rcv.rx with buffer := v, bitIndex := s.rcv.rx.bitIndex + 1 }, dm := .decided b } [])) ∧
    (s.rcv.rx.bitIndex + 1 = s.rcv.rx.length.toNat → exec (.rxSample lvl ts) s = .next (s.afterSample
      { s.rcv with rx := { s.rcv.rx with state := .readCrc, payload := v, buffer := 0#64, bitIndex := 0 },
                   dm := .decided b } []))

/-- A recovered bit in READ_CRC (42_receive_framer.md R267, R268): sixteen bits, then the message is reported with the
CRC as received, and the hunt begins again (the order of the events is D16, the re-armed trigger D22). -/
def Obligations.ReadCrcBitReportsTheMessage : Prop :=
  ∀ (s : State) (b : Bool) (lvl : Level) (ts : Micros) (v : Nat),
    s.rcv.rx.state = .readCrc → s.rcv.dm.decides s.cfg b →
    v = (2 * s.rcv.rx.buffer.toNat + (if b then 1 else 0)) % 2 ^ 16 →
    (s.rcv.rx.bitIndex + 1 ≠ 16 → exec (.rxSample lvl ts) s = .next (s.afterSample
      { s.rcv with rx := { s.rcv.rx with buffer := BitVec.ofNat 64 v, bitIndex := s.rcv.rx.bitIndex + 1 },
                   dm := .decided b } [])) ∧
    (s.rcv.rx.bitIndex + 1 = 16 → exec (.rxSample lvl ts) s = .next
      (s.afterFrame (.rxMessage s.rcv.rx.payload s.rcv.rx.length (BitVec.ofNat 16 v))))

/-- The marker search (42_receive_framer.md R261, R262, R271; D27, D38): of the bits recovered in WAIT_START the first
twelve in a row that read 1010 0011 1001 move to READ_LENGTH, up to and including the 49th bit; 49 bits without them
lose synchronization. -/
def Obligations.TheMarkerIsTakenAtItsFirstOccurrence : Prop :=
  ∀ (c : Config) (r : Receiver) (bits : List Bool) (endsAt : Nat → Prop),
    r.rx.state = .waitStart → r.rx.buffer = 0#64 → r.rx.bitIndex = 0 → bits.length ≤ 49 →
    (∀ n, endsAt n ↔ 12 ≤ n ∧ (bits.take n).drop (n - 12) =
      [true, false, true, false, false, false, true, true, true, false, false, true]) →
    (∀ n, n < bits.length → ¬ endsAt n) →
    (endsAt bits.length → framerRun c bits r [] =
      ({ r with rx := { r.rx with state := .readLength, buffer := 0#64, bitIndex := 0 } }, [])) ∧
    (¬ endsAt bits.length → bits.length = 49 → framerRun c bits r [] =
      (.freshHunt c r.rx.syncAttached, [.fault .syncLost, .rxCancelTrigger, .rxSetRecurring (nominalSampleUs c)]))

/-- The fields of a frame are put together again (20_memory.md R83; 42_receive_framer.md R263 to R268;
40_transmit_framer.md R167; D17, D50): the length, the low `len` bits of a payload and a CRC, most significant bit
first, give exactly one message with the payload modulo `2^len`, and a fresh hunt. -/
def Obligations.FieldBitsAreReassembled : Prop :=
  ∀ (c : Config) (r : Receiver) (payload : BitVec 64) (len : BitVec 7) (crc : BitVec 16), len.toNat ≤ 64 →
    r.rx.state = .readLength → r.rx.buffer = 0#64 → r.rx.bitIndex = 0 →
    framerRun c (bitsMsb 7 len ++ bitsMsb len.toNat payload ++ bitsMsb 16 crc) r [] =
      (.freshHunt c r.rx.syncAttached,
        [.rxMessage (BitVec.ofNat 64 (payload.toNat % 2 ^ len.toNat)) len crc, .rxCancelTrigger,
          .rxSetRecurring (nominalSampleUs c)])

/-- The static receiver decodes an ideal frame (the round trip of 95_test_vectors.md V28, from 42_receive_framer.md R250
to R268, 41_bit_demodulator.md R201 and 40_transmit_framer.md R167; D11, D17, D22 to D27): from a fresh static hunt,
each bit of a frame sampled `N` times at any timestamps gives exactly one message and no other report, and a fresh
hunt. -/
def Obligations.StaticReceiverDecodesAnIdealFrame : Prop :=
  ∀ (s : State) (payload : BitVec 64) (len : BitVec 7) (crc : BitVec 16) (ts : Nat → Micros), len.toNat ≤ 64 →
    s.rcv = .freshHunt s.cfg false →
    ∃ t,
      runCommands
        (((frameBits payload len crc).flatMap (fun b => List.replicate s.cfg.params.n b)).mapIdx
          (fun i b => Instr.rxSample b (ts i))) s = .next t ∧
      t.history = s.history ++
        [.rxMessage (BitVec.ofNat 64 (payload.toNat % 2 ^ len.toNat)) len crc, .rxCancelTrigger,
          .rxSetRecurring (nominalSampleUs s.cfg)] ∧
      t.rcv = s.rcv ∧ t.tx = s.tx ∧ t.cfg = s.cfg

/-! ## Clock Synchronizer and the dynamic hunt -/

/-- WAIT_SYNC (43_clock_synchronizer.md R303, R304, R309; D29, D34): highs are counted up to SL; a low after fewer
starts again; a low after SL of them opens the first low run, of which it is the first sample. -/
def Obligations.WaitSyncCountsTheLeadingHighs : Prop :=
  ∀ (s : State) (lvl : Level) (ts : Micros),
    s.rcv.rx.state = .syncHunt → s.rcv.rx.syncAttached = true → s.rcv.sy.state = .waitSync →
    (lvl = true → exec (.rxSample lvl ts) s = .next (s.afterSample
      { s.rcv with sy := { s.rcv.sy with waitHigh := min (s.rcv.sy.waitHigh + 1) s.cfg.params.sl } } [])) ∧
    (lvl = false → s.rcv.sy.waitHigh < s.cfg.params.sl → exec (.rxSample lvl ts) s = .next (s.afterSample
      { s.rcv with sy := { s.rcv.sy with waitHigh := 0 } } [])) ∧
    (lvl = false → s.cfg.params.sl ≤ s.rcv.sy.waitHigh → exec (.rxSample lvl ts) s = .next (s.afterSample
      { s.rcv with sy := { s.rcv.sy with state := .startSync, waitHigh := 0, expected := 0, expectedValid := false,
                                         runLevel := false, matched := 1, wrong := 0 } } []))

/-- A sample of a run that does not complete it (43_clock_synchronizer.md R306, R308, R315; D28, D33): a matching sample
counts, and beyond the window's upper end fails the run; an opposite sample below the window's lower end is a wrong
sample, and the one after STOL of them fails the run. A failed run resets the session and reports SYNC_RUN. -/
def Obligations.RunCollectionKeepsItsWindow : Prop :=
  ∀ (s : State) (lvl : Level) (ts : Micros) (hi : Nat),
    s.rcv.rx.state = .syncHunt → s.rcv.rx.syncAttached = true →
    s.rcv.sy.state = .startSync ∨ s.rcv.sy.state = .sync →
    hi = (if s.rcv.sy.expectedValid then s.rcv.sy.expected + s.cfg.params.vt else s.cfg.params.sh) →
    (lvl = s.rcv.sy.runLevel → s.rcv.sy.matched + 1 ≤ hi → exec (.rxSample lvl ts) s = .next (s.afterSample
      { s.rcv with sy := { s.rcv.sy with matched := s.rcv.sy.matched + 1 } } [])) ∧
    (lvl = s.rcv.sy.runLevel → hi < s.rcv.sy.matched + 1 → exec (.rxSample lvl ts) s = .next (s.afterSample
      { s.rcv with sy := .reset } [.fault .syncRun])) ∧
    (lvl ≠ s.rcv.sy.runLevel →
      (if s.rcv.sy.expectedValid then s.rcv.sy.matched + s.cfg.params.vt < s.rcv.sy.expected
       else s.rcv.sy.matched < s.cfg.params.sl) →
      (s.rcv.sy.wrong < s.cfg.params.stol → exec (.rxSample lvl ts) s = .next (s.afterSample
        { s.rcv with sy := { s.rcv.sy with wrong := s.rcv.sy.wrong + 1 } } [])) ∧
      (s.cfg.params.stol ≤ s.rcv.sy.wrong → exec (.rxSample lvl ts) s = .next (s.afterSample
        { s.rcv with sy := .reset } [.fault .syncRun])))

/-- The first low run completes (43_clock_synchronizer.md R310; D29, D30, D31): its length, wrong samples included, is
the expected count, and timing starts at the flip sample. -/
def Obligations.FirstLowRunSetsTheExpectedCount : Prop :=
  ∀ (s : State) (lvl : Level) (ts : Micros),
    s.rcv.rx.state = .syncHunt → s.rcv.rx.syncAttached = true → s.rcv.sy.state = .startSync →
    s.rcv.sy.expectedValid = false → lvl ≠ s.rcv.sy.runLevel → s.cfg.params.sl ≤ s.rcv.sy.matched →
    exec (.rxSample lvl ts) s = .next (s.afterSample
      { s.rcv with sy := { s.rcv.sy with expected := s.rcv.sy.matched + s.rcv.sy.wrong, expectedValid := true, t0 := ts,
                                         runLevel := lvl, matched := 1, wrong := 0 } } [])

/-- A later run completes and is not the last (43_clock_synchronizer.md R311; D29, D31): one more half-bit processed,
and the flip sample opens the next run, in SYNC. -/
def Obligations.ALaterRunCountsAHalfBit : Prop :=
  ∀ (s : State) (lvl : Level) (ts : Micros),
    s.rcv.rx.state = .syncHunt → s.rcv.rx.syncAttached = true →
    s.rcv.sy.state = .startSync ∨ s.rcv.sy.state = .sync →
    s.rcv.sy.expectedValid = true → lvl ≠ s.rcv.sy.runLevel →
    s.rcv.sy.expected ≤ s.rcv.sy.matched + s.cfg.params.vt → s.rcv.sy.processed + 1 ≠ s.cfg.params.syncLength →
    exec (.rxSample lvl ts) s = .next (s.afterSample
      { s.rcv with sy := { s.rcv.sy with state := .sync, processed := s.rcv.sy.processed + 1,
                                         runLevel := lvl, matched := 1, wrong := 0 } } [])

/-- The last run completes (43_clock_synchronizer.md R312, R315; 42_receive_framer.md R257, R258; D12, D13, D26, D32,
D33, D35): inside the rate window the period is reported, the trigger re-armed at `floor(period / N)` and the edge
sample seeded as slot 1; outside it the session is reset and SYNC_RATE reported. -/
def Obligations.TheLastRunLocksOrRejectsTheRate : Prop :=
  ∀ (s : State) (lvl : Level) (ts : Micros) (period : Nat),
    s.rcv.rx.state = .syncHunt → s.rcv.rx.syncAttached = true →
    s.rcv.sy.state = .startSync ∨ s.rcv.sy.state = .sync →
    s.rcv.sy.expectedValid = true → lvl ≠ s.rcv.sy.runLevel →
    s.rcv.sy.expected ≤ s.rcv.sy.matched + s.cfg.params.vt → s.rcv.sy.processed + 1 = s.cfg.params.syncLength →
    period = (ts.toNat + 2 ^ 32 - s.rcv.sy.t0.toNat) % 2 ^ 32 * s.cfg.params.m / s.cfg.params.syncLength →
    (s.cfg.params.rateLo ≤ period → period ≤ s.cfg.params.rateHi →
      exec (.rxSample lvl ts) s = .next (s.after s.tx
        { rx := { s.rcv.rx with state := .waitStart, buffer := 0#64, bitIndex := 0,
                                samplePeriod := BitVec.ofNat 32 (period / s.cfg.params.n) },
          dm := { lowCount := if lvl then 0 else 1, highCount := if lvl then 1 else 0, slot := 2, lastBit := false },
          cr := .reset,
          sy := { s.rcv.sy with state := .done, processed := s.cfg.params.syncLength,
                                detected := BitVec.ofNat 32 period } }
        { s.agents with rxTrigger := .recurring (BitVec.ofNat 32 (period / s.cfg.params.n)) } .ok
        [.rxSynchronized (BitVec.ofNat 32 period),
          .rxSetRecurring (BitVec.ofNat 32 (period / s.cfg.params.n))])) ∧
    (period < s.cfg.params.rateLo ∨ s.cfg.params.rateHi < period →
      exec (.rxSample lvl ts) s = .next (s.afterSample { s.rcv with sy := .reset } [.fault .syncRate]))

/-- A synchronizer fault is reported and changes nothing in `rx` (42_receive_framer.md R256): the framer stays in
SYNC_HUNT, its trigger untouched, the session alone is reset to WAIT_SYNC, and TX activity is unaffected. -/
def Obligations.SynchronizerFaultLeavesTheFramer : Prop :=
  ∀ (s t : State) (lvl : Level) (ts : Micros) (code : FaultCode),
    exec (.rxSample lvl ts) s = .next t → code = .syncRun ∨ code = .syncRate → Event.fault code ∈ t.events →
    s.rcv.rx.state = .syncHunt ∧ t.events = [.fault code] ∧ t.rcv = { s.rcv with sy := .reset } ∧ t.tx = s.tx ∧
      t.agents.txTrigger = s.agents.txTrigger ∧ t.agents.line = s.agents.line ∧
      ∀ us, s.agents.rxTrigger = .recurring us → t.agents.rxTrigger = .recurring us

/-- `sync_reset()` starts a fresh session, every field at 0 and WAIT_SYNC (43_clock_synchronizer.md R301); it is
performed by a synchronizer fault, by `enter_sync_hunt()` (which every other FAULT and RX_MESSAGE goes through), by
RX_START, RX_STOP, RX_ATTACH_SYNC, RX_DETACH_SYNC and RESET. -/
def Obligations.SyncResetStartsAFreshSession : Prop :=
  ∀ (i : Instr) (s t : State), exec i s = .next t →
    (i = .rxStart ∧ s.rcv.rx.state = .stopped) ∨ (i = .rxStop ∧ s.rcv.rx.state ≠ .stopped) ∨ i = .rxAttachSync ∨
      i = .rxDetachSync ∨ i = .reset ∨ (∃ code, Event.fault code ∈ t.events) ∨
      (∃ payload len crc, Event.rxMessage payload len crc ∈ t.events) →
    t.rcv.sy = ⟨.waitSync, 0, false, 0, 0, 0, false, 0, 0#32, 0#32⟩

/-- The synchronizer's states only go forward, WAIT_SYNC, START_SYNC, SYNC, DONE, or back to WAIT_SYNC by a reset; every
fault goes back to WAIT_SYNC, and `STATUS[9:8]` reads them as 0 to 3 (43_clock_synchronizer.md R302). -/
def Obligations.SynchronizerStatesAdvanceInOrder : Prop :=
  (∀ (i : Instr) (s t : State), exec i s = .next t → t.rcv.sy.state ≠ s.rcv.sy.state →
    (s.rcv.sy.state = .waitSync ∧ t.rcv.sy.state = .startSync) ∨
    (s.rcv.sy.state = .startSync ∧ t.rcv.sy.state = .sync) ∨
    (s.rcv.sy.state = .startSync ∧ t.rcv.sy.state = .done) ∨
    (s.rcv.sy.state = .sync ∧ t.rcv.sy.state = .done) ∨
    t.rcv.sy = .reset) ∧
  (∀ (i : Instr) (s t : State) (code : FaultCode), exec i s = .next t → Event.fault code ∈ t.events →
    t.rcv.sy.state = .waitSync) ∧
  (∀ s : State, s.statusWord.extractLsb' 8 2 =
    match s.rcv.sy.state with
    | .waitSync => 0#2
    | .startSync => 1#2
    | .sync => 2#2
    | .done => 3#2)

/-- The edge sample of a dynamic recovery is high in every state of the invariant, so the seeded tally is the high one
(43_clock_synchronizer.md R303, R309 to R312 with an even SYNC_LENGTH; D29, D31). -/
def Obligations.RecoveryEndsOnAHighSample : Prop :=
  ∀ (s t : State) (lvl : Level) (ts period : Micros), s.Inv → exec (.rxSample lvl ts) s = .next t →
    Event.rxSynchronized period ∈ t.events → lvl = true ∧ t.rcv.dm = ⟨0, 1, 2, false⟩

/-- A clean alternating preamble is locked on (43_clock_synchronizer.md R303 to R313, R325; D12, D13, D28 to D32): runs
of `h` samples each, `p` µs apart, with `h` inside `[SL, SH]` and the period inside the rate window, give
`DONE(h * p * M)` on the first sample after the last run. -/
def Obligations.ACleanPreambleIsLocked : Prop :=
  ∀ (c : Config) (h : Nat) (p ts : Micros),
    c.params.sl ≤ h → h ≤ c.params.sh → c.params.syncLength * (h * p.toNat) < 2 ^ 32 →
    c.params.rateLo ≤ h * p.toNat * c.params.m → h * p.toNat * c.params.m ≤ c.params.rateHi →
    ∃ y,
      syncRun c p
        ((List.range (c.params.syncLength + 2)).flatMap (fun i => List.replicate h (decide (i % 2 = 0))) ++ [true])
        ts .reset .none = (y, .done (BitVec.ofNat 32 (h * p.toNat * c.params.m))) ∧
      y.state = .done ∧ y.detected = BitVec.ofNat 32 (h * p.toNat * c.params.m)

/-! ## The whole machine -/

/-- After power-on every field holds the value of 10_state.md R54 and `STATUS` is 0, no event and no response
(70_reset_and_hazards.md R400; D20, D39), for every configuration; `State.reset` is that state. -/
def Obligations.PowerOnValues : Prop :=
  (∀ c : Config,
    (State.powerOn c).tx = ⟨.idle, 0, 0#64, 0#7, 0#16, false⟩ ∧
    (State.powerOn c).rcv.rx = ⟨.stopped, 0#64, 0, 0#7, 0#64, 0#16, false, 0#32⟩ ∧
    (State.powerOn c).rcv.dm = ⟨0, 0, 0, false⟩ ∧ (State.powerOn c).rcv.cr = ⟨0⟩ ∧
    (State.powerOn c).rcv.sy = ⟨.waitSync, 0, false, 0, 0, 0, false, 0, 0#32, 0#32⟩ ∧
    (State.powerOn c).statusWord = 0#32 ∧ (State.powerOn c).events = [] ∧ (State.powerOn c).resp = none ∧
    (State.powerOn c).agents = ⟨.idle, .idle, none⟩) ∧
  (∃ c, State.reset = State.powerOn c)

/-- RESET (70_reset_and_hazards.md R401, R403; D39): both cancels in every state, every field at its reset value, the
configuration unchanged; the line keeps the level last driven (R406). -/
def Obligations.ResetRestoresEveryField : Prop :=
  ∀ s : State, ∃ t,
    exec .reset s = .next t ∧
    t = s.after ⟨.idle, 0, 0#64, 0#7, 0#16, false⟩
      { rx := ⟨.stopped, 0#64, 0, 0#7, 0#64, 0#16, false, 0#32⟩, dm := ⟨0, 0, 0, false⟩, cr := ⟨0⟩,
        sy := ⟨.waitSync, 0, false, 0, 0, 0, false, 0, 0#32, 0#32⟩ }
      ⟨.idle, .idle, s.agents.line⟩ .ok [.txCancelTrigger, .rxCancelTrigger] ∧
    t.statusWord = 0#32

/-- The two sides do not interfere (10_state.md R31): what a TX command does depends on `tx` alone and leaves the
receiver side as it is, and what an RX command does depends on the receiver side alone and leaves `tx` as it is. -/
def Obligations.TheTwoSidesDoNotInterfere : Prop :=
  ∀ (i : Instr) (s s' u u' : State), exec i s = .next s' → exec i u = .next u' → s.cfg = u.cfg →
    (i.isTx = true → s.tx = u.tx →
      s'.tx = u'.tx ∧ s'.events = u'.events ∧ s'.resp = u'.resp ∧ s'.rcv = s.rcv ∧ u'.rcv = u.rcv) ∧
    (i.isRx = true → s.rcv = u.rcv →
      s'.rcv = u'.rcv ∧ s'.events = u'.events ∧ s'.resp = u'.resp ∧ s'.tx = s.tx ∧ u'.tx = u.tx)

/-- "no order of a TX command relative to an RX command changes either side's state" (70_reset_and_hazards.md R423). -/
def Obligations.TxAndRxCommandsCommute : Prop :=
  ∀ (i j : Instr) (s : State), i.isTx = true → j.isRx = true → i.wellFormed = true →
    ∃ a b x y, exec i s = .next a ∧ exec j a = .next x ∧ exec j s = .next b ∧ exec i b = .next y ∧
      x.tx = y.tx ∧ x.rcv = y.rcv ∧ x.agents = y.agents ∧ x.cfg = y.cfg

/-- No step ends in a machine fault, and none depends on a fault emitted before it (from 60_exceptions.md R354): what a
step does depends on `tx`, the receiver side and the configuration alone. The first clause says only that the model's
`Fault` type is empty, which is the model's reading (notes/assumptions/4.md, DEDUCED); that every command still completes
is EveryWellFormedCommandCompletes. -/
def Obligations.NoFaultIsFatalOrLatched : Prop :=
  (∀ (i : Instr) (s : State) (f : Fault), exec i s ≠ .fault f) ∧
  (∀ (i : Instr) (s u : State), s.cfg = u.cfg → s.tx = u.tx → s.rcv = u.rcv →
    (∀ s', exec i s = .next s' → ∃ u', exec i u = .next u' ∧ u'.tx = s'.tx ∧ u'.rcv = s'.rcv ∧
      u'.events = s'.events ∧ u'.resp = s'.resp) ∧
    (∀ r, exec i s = .refused r → exec i u = .refused r))

/-- One step emits at most one FAULT event, as its first event, and at most three events, and only RX_SAMPLE emits one
(60_exceptions.md R351, R355; 70_reset_and_hazards.md R421; D16, D38). -/
def Obligations.AtMostOneFaultAndItComesFirst : Prop :=
  ∀ (i : Instr) (s t : State), exec i s = .next t →
    t.events.length ≤ 3 ∧ (∀ e ∈ t.events.tail, e.isFault = false) ∧
    ((∃ e ∈ t.events, e.isFault = true) → ∃ lvl ts, i = .rxSample lvl ts)

/-- RX_MESSAGE comes only from the RX_SAMPLE that completes the CRC (42_receive_framer.md R270): the step before it has
15 CRC bits and stands at the last slot of a cell, the reported length and payload are the ones held, and nothing of
the frame is left afterwards. -/
def Obligations.AMessageComesOnlyFromACompleteFrame : Prop :=
  ∀ (i : Instr) (s t : State) (payload : BitVec 64) (len : BitVec 7) (crc : BitVec 16),
    s.Inv → exec i s = .next t → Event.rxMessage payload len crc ∈ t.events →
    (∃ lvl ts, i = .rxSample lvl ts) ∧ s.rcv.rx.state = .readCrc ∧ s.rcv.rx.bitIndex = 15 ∧
      s.rcv.dm.slot + 1 = s.cfg.params.n ∧ payload = s.rcv.rx.payload ∧ len = s.rcv.rx.length ∧
      payload.toNat < 2 ^ len.toNat ∧ crc.toNat / 2 = s.rcv.rx.buffer.toNat ∧
      t.rcv = .freshHunt s.cfg s.rcv.rx.syncAttached

/-- The invariant of Safety.lean holds after power-on, for every configuration. -/
def Obligations.InvariantHoldsAtPowerOn : Prop := ∀ c : Config, (State.powerOn c).Inv

/-- Every step keeps the invariant: the ranges and relations of 10_state.md R35 to R49, 43_clock_synchronizer.md R302
and R316, and the collaborators' requests of 40_transmit_framer.md R170 and 60_exceptions.md R371 to R374 (D15, D21,
D34, D35). -/
def Obligations.InvariantKeptByEveryStep : Prop :=
  ∀ s t : State, s.Inv → step s = .next t → t.Inv
end

