-- ==== Sys2Proof/Laws/Decode.lean ====
section
/-! SUPPORT. The fields of the encoded words, and what an accepted word satisfies. -/

namespace Sys2Proof

/-- The decoder answers a command of a format only when the format's reserved bits are zero. -/
theorem withReserved_ok {reserved c : CommandWord} {r : Except DecodeError Instr} {i : Instr} :
    withReserved reserved c r = .ok i ↔ c &&& reserved = 0#128 ∧ r = .ok i := by
  unfold withReserved
  split <;> simp [*]

/-! ## The fields of the three formats -/

/-- The bits of a placed field. -/
@[simp] theorem getLsbD_placeAt {n : Nat} (w lo i : Nat) (v : BitVec n) :
    (placeAt w v lo).getLsbD i = (decide (i < w) && decide (lo ≤ i) && v.getLsbD (i - lo)) := by
  rw [placeAt, BitVec.getLsbD_shiftLeft, BitVec.getLsbD_setWidth]
  by_cases h1 : i < w
  · by_cases h2 : i < lo
    · have h3 : ¬ lo ≤ i := by omega
      simp [h1, h2, h3]
    · have h3 : lo ≤ i := by omega
      have h4 : i - lo < w := by omega
      simp [h1, h2, h3, h4]
  · simp [h1]

@[simp] theorem getElem_placeAt {n : Nat} (w lo i : Nat) (v : BitVec n) (hi : i < w) :
    (placeAt w v lo)[i] = (decide (lo ≤ i) && v.getLsbD (i - lo)) := by
  rw [← BitVec.getLsbD_eq_getElem, getLsbD_placeAt]
  simp [hi]

/-- Masking a placed field masks the field with the mask's bits at its place. -/
theorem placeAt_and {n w : Nat} (v : BitVec n) (lo : Nat) (m : BitVec w) :
    placeAt w v lo &&& m = placeAt w (v &&& m.extractLsb' lo n) lo := by
  apply BitVec.eq_of_getLsbD_eq
  intro i hi
  simp only [BitVec.getLsbD_and, getLsbD_placeAt, BitVec.getLsbD_extractLsb']
  by_cases h : lo ≤ i
  · by_cases h' : i - lo < n
    · simp [h, h', Nat.add_sub_cancel' h, Bool.and_assoc]
    · simp [BitVec.getLsbD_of_ge v _ (Nat.not_lt.mp h')]
  · simp [h]

/-- Masking distributes over the fields of a word. -/
theorem or_and {w : Nat} (a b m : BitVec w) : (a ||| b) &&& m = a &&& m ||| b &&& m := by
  apply BitVec.eq_of_getLsbD_eq
  intro i _
  simp [Bool.and_or_distrib_right]

@[simp] theorem placeAt_zero {n : Nat} (w lo : Nat) : placeAt w (0#n) lo = 0#w := by
  apply BitVec.eq_of_getLsbD_eq
  intro i hi
  simp

/-- A field of a word, bit by bit. -/
theorem extract_eq {n w : Nat} {c : BitVec w} {lo : Nat} {v : BitVec n}
    (h : ∀ i < n, c.getLsbD (lo + i) = v.getLsbD i) : c.extractLsb' lo n = v := by
  apply BitVec.eq_of_getLsbD_eq
  intro i hi
  rw [BitVec.getLsbD_extractLsb', h i hi]
  simp [hi]

theorem opc_wordF0 (opc : BitVec 4) : CommandWord.opc (wordF0 opc) = opc := by
  refine extract_eq fun i hi => ?_
  simp [wordF0]; omega

theorem opc_wordFS (opc : BitVec 4) (payload : BitVec 64) (len : BitVec 7) (crc : BitVec 16) :
    CommandWord.opc (wordFS opc payload len crc) = opc := by
  refine extract_eq fun i hi => ?_
  interval_cases i <;> simp [wordFS]

theorem len_wordFS (opc : BitVec 4) (payload : BitVec 64) (len : BitVec 7) (crc : BitVec 16) :
    CommandWord.len (wordFS opc payload len crc) = len := by
  refine extract_eq fun i hi => ?_
  interval_cases i <;> simp [wordFS]

theorem crc_wordFS (opc : BitVec 4) (payload : BitVec 64) (len : BitVec 7) (crc : BitVec 16) :
    CommandWord.crc (wordFS opc payload len crc) = crc := by
  refine extract_eq fun i hi => ?_
  interval_cases i <;> simp [wordFS]

theorem payload_wordFS (opc : BitVec 4) (payload : BitVec 64) (len : BitVec 7) (crc : BitVec 16) :
    CommandWord.payload (wordFS opc payload len crc) = payload := by
  refine extract_eq fun i hi => ?_
  simp only [wordFS, BitVec.getLsbD_or, getLsbD_placeAt]
  rw [BitVec.getLsbD_of_ge opc _ (by omega), BitVec.getLsbD_of_ge len _ (by omega),
    BitVec.getLsbD_of_ge crc _ (by omega)]
  simp; omega

theorem reserved_wordFS (payload : BitVec 64) (len : BitVec 7) (crc : BitVec 16) :
    (wordFS 2#4 payload len crc) &&& reservedFS = 0#128 := by
  have h1 : reservedFS.extractLsb' 0 4 = 0#4 := by decide
  have h2 : reservedFS.extractLsb' 16 7 = 0#7 := by decide
  have h3 : reservedFS.extractLsb' 32 16 = 0#16 := by decide
  have h4 : reservedFS.extractLsb' 64 64 = 0#64 := by decide
  simp [wordFS, or_and, placeAt_and, h1, h2, h3, h4]

theorem opc_wordFR (opc : BitVec 4) (lvl : Level) (ts : Micros) :
    CommandWord.opc (wordFR opc lvl ts) = opc := by
  refine extract_eq fun i hi => ?_
  interval_cases i <;> simp [wordFR]

theorem lvl_wordFR (opc : BitVec 4) (lvl : Level) (ts : Micros) :
    CommandWord.lvl (wordFR opc lvl ts) = lvl := by
  simp [CommandWord.lvl, wordFR]

theorem ts_wordFR (opc : BitVec 4) (lvl : Level) (ts : Micros) :
    CommandWord.ts (wordFR opc lvl ts) = ts := by
  refine extract_eq fun i hi => ?_
  interval_cases i <;> simp [wordFR]

theorem reserved_wordFR (lvl : Level) (ts : Micros) :
    (wordFR 7#4 lvl ts) &&& reservedFR = 0#128 := by
  have h1 : reservedFR.extractLsb' 0 4 = 0#4 := by decide
  have h2 : reservedFR.extractLsb' 8 1 = 0#1 := by decide
  have h3 : reservedFR.extractLsb' 32 32 = 0#32 := by decide
  simp [wordFR, or_and, placeAt_and, h1, h2, h3]

end Sys2Proof
end

