-- ==== Sys2Proof/Laws/State.lean ====
section
/-! SUPPORT. One lemma per field per named update of the state and its records, all true by `rfl`. -/

namespace Sys2Proof.Machine

variable (s : State) (r : Resp) (es : List Event) (p : TxSession × List Event) (q : Receiver × List Event)

/-! ## The end of a step -/

@[simp] theorem complete_cfg : (s.complete r es).cfg = s.cfg := rfl
@[simp] theorem complete_tx : (s.complete r es).tx = s.tx := rfl
@[simp] theorem complete_rcv : (s.complete r es).rcv = s.rcv := rfl
@[simp] theorem complete_resp : (s.complete r es).resp = some r := rfl
@[simp] theorem complete_events : (s.complete r es).events = es := rfl
@[simp] theorem complete_history : (s.complete r es).history = s.history ++ es := rfl
@[simp] theorem complete_agents : (s.complete r es).agents = s.agents.observeAll es := rfl
@[simp] theorem complete_inbox : (s.complete r es).inbox = s.inbox := rfl

@[simp] theorem completeTx_cfg : (s.completeTx p).cfg = s.cfg := rfl
@[simp] theorem completeTx_tx : (s.completeTx p).tx = p.1 := rfl
@[simp] theorem completeTx_rcv : (s.completeTx p).rcv = s.rcv := rfl
@[simp] theorem completeTx_resp : (s.completeTx p).resp = some .ok := rfl
@[simp] theorem completeTx_events : (s.completeTx p).events = p.2 := rfl
@[simp] theorem completeTx_history : (s.completeTx p).history = s.history ++ p.2 := rfl
@[simp] theorem completeTx_agents : (s.completeTx p).agents = s.agents.observeAll p.2 := rfl
@[simp] theorem completeTx_inbox : (s.completeTx p).inbox = s.inbox := rfl

@[simp] theorem completeRx_cfg : (s.completeRx q).cfg = s.cfg := rfl
@[simp] theorem completeRx_tx : (s.completeRx q).tx = s.tx := rfl
@[simp] theorem completeRx_rcv : (s.completeRx q).rcv = q.1 := rfl
@[simp] theorem completeRx_resp : (s.completeRx q).resp = some .ok := rfl
@[simp] theorem completeRx_events : (s.completeRx q).events = q.2 := rfl
@[simp] theorem completeRx_history : (s.completeRx q).history = s.history ++ q.2 := rfl
@[simp] theorem completeRx_agents : (s.completeRx q).agents = s.agents.observeAll q.2 := rfl
@[simp] theorem completeRx_inbox : (s.completeRx q).inbox = s.inbox := rfl

/-! ## A trigger fires -/

@[simp] theorem fireTx_cfg : s.fireTx.cfg = s.cfg := rfl
@[simp] theorem fireTx_tx : s.fireTx.tx = s.tx := rfl
@[simp] theorem fireTx_rcv : s.fireTx.rcv = s.rcv := rfl
@[simp] theorem fireTx_history : s.fireTx.history = s.history := rfl
@[simp] theorem fireTx_inbox : s.fireTx.inbox = s.inbox := rfl
@[simp] theorem fireTx_txTrigger : s.fireTx.agents.txTrigger = s.agents.txTrigger.fire := rfl
@[simp] theorem fireTx_rxTrigger : s.fireTx.agents.rxTrigger = s.agents.rxTrigger := rfl
@[simp] theorem fireTx_line : s.fireTx.agents.line = s.agents.line := rfl

@[simp] theorem fireRx_cfg : s.fireRx.cfg = s.cfg := rfl
@[simp] theorem fireRx_tx : s.fireRx.tx = s.tx := rfl
@[simp] theorem fireRx_rcv : s.fireRx.rcv = s.rcv := rfl
@[simp] theorem fireRx_history : s.fireRx.history = s.history := rfl
@[simp] theorem fireRx_inbox : s.fireRx.inbox = s.inbox := rfl
@[simp] theorem fireRx_txTrigger : s.fireRx.agents.txTrigger = s.agents.txTrigger := rfl
@[simp] theorem fireRx_rxTrigger : s.fireRx.agents.rxTrigger = s.agents.rxTrigger.fire := rfl
@[simp] theorem fireRx_line : s.fireRx.agents.line = s.agents.line := rfl

/-! ## RESET and the command stream -/

@[simp] theorem clearBlock_cfg : s.clearBlock.cfg = s.cfg := rfl
@[simp] theorem clearBlock_tx : s.clearBlock.tx = .reset := rfl
@[simp] theorem clearBlock_rcv : s.clearBlock.rcv = .reset := rfl
@[simp] theorem clearBlock_history : s.clearBlock.history = s.history := rfl
@[simp] theorem clearBlock_agents : s.clearBlock.agents = s.agents := rfl
@[simp] theorem clearBlock_inbox : s.clearBlock.inbox = s.inbox := rfl

@[simp] theorem placeNext_inbox (c : CommandWord) : (s.placeNext c).inbox = c :: s.inbox := rfl
@[simp] theorem deliver_inbox (cs : List CommandWord) : (s.deliver cs).inbox = s.inbox ++ cs := rfl

/-- Taking the next command changes nothing but the inbox, of which it is the head. -/
theorem takeCommand_some {c : CommandWord} {t : State} (h : s.takeCommand = some (c, t)) :
    s.inbox = c :: t.inbox ∧ t = { s with inbox := t.inbox } := by
  unfold State.takeCommand at h
  split at h
  · cases h
  · next heq => cases h; exact ⟨heq, rfl⟩

/-- The placed word is the one taken next, and taking it restores the state. -/
theorem takeCommand_placeNext (c : CommandWord) : (s.placeNext c).takeCommand = some (c, s) := rfl

/-! ## The TX session -/

variable (t : TxSession) (lvl : Level) (w : Nat) (st : TxState)

@[simp] theorem enter_state : (t.enter st w).state = st := rfl
@[simp] theorem enter_stepIndex : (t.enter st w).stepIndex = w := rfl
@[simp] theorem enter_payload : (t.enter st w).payload = t.payload := rfl
@[simp] theorem enter_length : (t.enter st w).length = t.length := rfl
@[simp] theorem enter_crc : (t.enter st w).crc = t.crc := rfl
@[simp] theorem enter_line : (t.enter st w).line = t.line := rfl

@[simp] theorem drive_state : (t.drive lvl).state = t.state := rfl
@[simp] theorem drive_stepIndex : (t.drive lvl).stepIndex = t.stepIndex := rfl
@[simp] theorem drive_payload : (t.drive lvl).payload = t.payload := rfl
@[simp] theorem drive_length : (t.drive lvl).length = t.length := rfl
@[simp] theorem drive_crc : (t.drive lvl).crc = t.crc := rfl
@[simp] theorem drive_line : (t.drive lvl).line = lvl := rfl

/-! ## The receiver side -/

variable (x : RxFramer) (v : Receiver) (rs : RxState) (us : Micros) (b : Bool) (c : Config) (d : Demod)

@[simp] theorem clearAccumulator_state : x.clearAccumulator.state = x.state := rfl
@[simp] theorem clearAccumulator_buffer : x.clearAccumulator.buffer = 0#64 := rfl
@[simp] theorem clearAccumulator_bitIndex : x.clearAccumulator.bitIndex = 0 := rfl
@[simp] theorem clearAccumulator_length : x.clearAccumulator.length = x.length := rfl
@[simp] theorem clearAccumulator_payload : x.clearAccumulator.payload = x.payload := rfl
@[simp] theorem clearAccumulator_crc : x.clearAccumulator.crc = x.crc := rfl
@[simp] theorem clearAccumulator_syncAttached : x.clearAccumulator.syncAttached = x.syncAttached := rfl
@[simp] theorem clearAccumulator_samplePeriod : x.clearAccumulator.samplePeriod = x.samplePeriod := rfl

@[simp] theorem take_state : (x.take w b).state = x.state := rfl
@[simp] theorem take_buffer : (x.take w b).buffer = shiftIn w x.buffer b := rfl
@[simp] theorem take_bitIndex : (x.take w b).bitIndex = x.bitIndex + 1 := rfl
@[simp] theorem take_length : (x.take w b).length = x.length := rfl
@[simp] theorem take_payload : (x.take w b).payload = x.payload := rfl
@[simp] theorem take_crc : (x.take w b).crc = x.crc := rfl
@[simp] theorem take_syncAttached : (x.take w b).syncAttached = x.syncAttached := rfl
@[simp] theorem take_samplePeriod : (x.take w b).samplePeriod = x.samplePeriod := rfl

@[simp] theorem demodReset_rx : v.demodReset.rx = v.rx := rfl
@[simp] theorem demodReset_dm : v.demodReset.dm = .reset := rfl
@[simp] theorem demodReset_cr : v.demodReset.cr = .reset := rfl
@[simp] theorem demodReset_sy : v.demodReset.sy = v.sy := rfl

@[simp] theorem syncReset_rx : v.syncReset.rx = v.rx := rfl
@[simp] theorem syncReset_dm : v.syncReset.dm = v.dm := rfl
@[simp] theorem syncReset_cr : v.syncReset.cr = v.cr := rfl
@[simp] theorem syncReset_sy : v.syncReset.sy = .reset := rfl

@[simp] theorem advance_rx_state : (v.advance x rs).rx.state = rs := rfl
@[simp] theorem advance_rx_buffer : (v.advance x rs).rx.buffer = 0#64 := rfl
@[simp] theorem advance_rx_bitIndex : (v.advance x rs).rx.bitIndex = 0 := rfl
@[simp] theorem advance_rx_length : (v.advance x rs).rx.length = x.length := rfl
@[simp] theorem advance_rx_payload : (v.advance x rs).rx.payload = x.payload := rfl
@[simp] theorem advance_rx_crc : (v.advance x rs).rx.crc = x.crc := rfl
@[simp] theorem advance_rx_syncAttached : (v.advance x rs).rx.syncAttached = x.syncAttached := rfl
@[simp] theorem advance_rx_samplePeriod : (v.advance x rs).rx.samplePeriod = x.samplePeriod := rfl
@[simp] theorem advance_dm : (v.advance x rs).dm = v.dm := rfl
@[simp] theorem advance_cr : (v.advance x rs).cr = v.cr := rfl
@[simp] theorem advance_sy : (v.advance x rs).sy = v.sy := rfl

/-- Everything `restart` does: only `rx.sync_attached` survives. -/
theorem restart_eq : v.restart rs us =
    { rx := { RxFramer.reset with state := rs, samplePeriod := us, syncAttached := v.rx.syncAttached },
      dm := .reset, cr := .reset, sy := .reset } := rfl

@[simp] theorem restart_rx_state : (v.restart rs us).rx.state = rs := rfl
@[simp] theorem restart_rx_samplePeriod : (v.restart rs us).rx.samplePeriod = us := rfl
@[simp] theorem restart_rx_syncAttached : (v.restart rs us).rx.syncAttached = v.rx.syncAttached := rfl
@[simp] theorem restart_dm : (v.restart rs us).dm = .reset := rfl
@[simp] theorem restart_cr : (v.restart rs us).cr = .reset := rfl
@[simp] theorem restart_sy : (v.restart rs us).sy = .reset := rfl

@[simp] theorem enterSyncHunt_fst : (v.enterSyncHunt c).1 = v.restart .syncHunt (nominalSampleUs c) := rfl
@[simp] theorem enterSyncHunt_snd :
    (v.enterSyncHunt c).2 = [.rxCancelTrigger, .rxSetRecurring (nominalSampleUs c)] := rfl
@[simp] theorem abandonFrame_fst (code : FaultCode) :
    (v.abandonFrame c code).1 = v.restart .syncHunt (nominalSampleUs c) := rfl
@[simp] theorem abandonFrame_snd (code : FaultCode) :
    (v.abandonFrame c code).2 = [.fault code, .rxCancelTrigger, .rxSetRecurring (nominalSampleUs c)] := rfl

/-! ## The synchronizer session -/

variable (y : SyncSession)

@[simp] theorem newRun_state : (y.newRun lvl).state = y.state := rfl
@[simp] theorem newRun_waitHigh : (y.newRun lvl).waitHigh = y.waitHigh := rfl
@[simp] theorem newRun_runLevel : (y.newRun lvl).runLevel = lvl := rfl
@[simp] theorem newRun_matched : (y.newRun lvl).matched = 1 := rfl
@[simp] theorem newRun_wrong : (y.newRun lvl).wrong = 0 := rfl
@[simp] theorem newRun_expected : (y.newRun lvl).expected = y.expected := rfl
@[simp] theorem newRun_expectedValid : (y.newRun lvl).expectedValid = y.expectedValid := rfl
@[simp] theorem newRun_processed : (y.newRun lvl).processed = y.processed := rfl
@[simp] theorem newRun_t0 : (y.newRun lvl).t0 = y.t0 := rfl
@[simp] theorem newRun_detected : (y.newRun lvl).detected = y.detected := rfl

end Sys2Proof.Machine
end

