-- ==== Sys2Proof/Laws/Operands.lean ====
section
/-! SUPPORT. The configuration's constraints as arithmetic, and the small laws of shifting bits in and of the
collaborators' observations. -/

namespace Sys2Proof.Machine

/-! ## The constraints of 00_scope.md R13 as facts of any configuration -/

/-- R13, as one conjunction of arithmetic facts. -/
theorem Config.facts (c : Config) :
    3 ≤ c.params.n ∧ 2 * c.params.st + 2 < c.params.n ∧ c.params.n ≤ c.params.nominalBitPeriodUs ∧
      c.params.nominalBitPeriodUs < 2 ^ 32 ∧ 2 ≤ c.params.k ∧ c.params.k ≤ 36 ∧ 1 ≤ c.params.sl ∧
      c.params.sl ≤ c.params.sh ∧ 2 ≤ c.params.syncLength ∧ c.params.syncLength % 2 = 0 ∧
      c.params.n ≤ c.params.rateLo ∧ c.params.rateLo ≤ c.params.rateHi ∧ c.params.rateHi < 2 ^ 32 ∧
      (c.params.m = 1 ∨ c.params.m = 2) := by
  have h := c.wf
  simp only [Params.wellFormed, Bool.and_eq_true, Bool.or_eq_true, decide_eq_true_eq] at h
  obtain ⟨⟨⟨⟨⟨⟨⟨⟨⟨⟨⟨⟨⟨h1, h2⟩, h3⟩, h4⟩, h5⟩, h6⟩, h7⟩, h8⟩, h9⟩, h10⟩, h11⟩, h12⟩, h13⟩, h14⟩ := h
  exact ⟨h1, h2, h3, h4, h5, h6, h7, h8, h9, h10, h11, h12, h13, h14⟩

/-- A microsecond value below `2^32` keeps its value as an event operand. -/
theorem micros_toNat {us : Nat} (h : us < 2 ^ 32) : (micros us).toNat = us := by
  rw [micros, BitVec.toNat_ofNat, Nat.mod_eq_of_lt h]

/-- The nominal sample period is at least 1 µs (00_scope.md R12, R13). -/
theorem one_le_nominalSampleUs (c : Config) : 1 ≤ (nominalSampleUs c).toNat := by
  obtain ⟨hn, -, hp, hlt, -⟩ := Config.facts c
  rw [nominalSampleUs, micros_toNat (lt_of_le_of_lt (Nat.div_le_self _ _) hlt)]
  exact (Nat.one_le_div_iff (by omega)).mpr hp

/-! ## Bits in -/

@[simp] theorem bitNat_true : bitNat true = 1 := rfl
@[simp] theorem bitNat_false : bitNat false = 0 := rfl

theorem bitNat_le_one (b : Bool) : bitNat b ≤ 1 := by cases b <;> simp

theorem shiftInNat_lt (w v : Nat) (b : Bool) : shiftInNat w v b < 2 ^ w :=
  Nat.mod_lt _ (Nat.two_pow_pos w)

/-- While the width is not exceeded, shifting a bit in is doubling and adding. -/
theorem shiftInNat_eq {w v : Nat} (b : Bool) (h : 2 * v + 1 < 2 ^ w) : shiftInNat w v b = 2 * v + bitNat b :=
  Nat.mod_eq_of_lt (by have := bitNat_le_one b; omega)

/-- The accumulator holds the shifted number, for every width up to its own. -/
theorem shiftIn_toNat {w : Nat} (hw : w ≤ 64) (buffer : BitVec 64) (b : Bool) :
    (shiftIn w buffer b).toNat = shiftInNat w buffer.toNat b := by
  rw [shiftIn, BitVec.toNat_ofNat]
  exact Nat.mod_eq_of_lt (lt_of_lt_of_le (shiftInNat_lt _ _ _) (Nat.pow_le_pow_right (by decide) hw))

/-- An accumulator of `n` bits becomes one of `n + 1` bits. -/
theorem shiftInNat_lt_succ {w v n : Nat} (b : Bool) (hv : v < 2 ^ n) : shiftInNat w v b < 2 ^ (n + 1) :=
  lt_of_le_of_lt (Nat.mod_le _ _) (by have := bitNat_le_one b; rw [pow_succ]; omega)

/-! ## Observations -/

@[simp] theorem observeAll_nil (a : Agents) : a.observeAll [] = a := rfl

@[simp] theorem observeAll_cons (a : Agents) (e : Event) (es : List Event) :
    a.observeAll (e :: es) = (a.observe e).observeAll es := rfl

theorem observeAll_append (a : Agents) (es fs : List Event) :
    a.observeAll (es ++ fs) = (a.observeAll es).observeAll fs := List.foldl_append

end Sys2Proof.Machine
end

