-- ==== Sys2Proof/Laws/Parts.lean ====
section
/-! SUPPORT. What each internal procedure of the block can do, said once: the sub-step of the transmitter, a sample of
the demodulator, a sample of the synchronizer, a sample of the receiver. -/

namespace Sys2Proof.Machine

variable (c : Config)

/-! ## Transmitter -/

theorem tick_idle {t : TxSession} (h : t.state = .idle) : t.tick c = (t, []) := by simp [TxSession.tick, h]

theorem tick_wakeup {t : TxSession} (h : t.state = .wakeup) : t.tick c = t.wakeupStep := by simp [TxSession.tick, h]

theorem tick_field {t : TxSession} (h : t.state ≠ .idle) (h' : t.state ≠ .wakeup) : t.tick c = t.fieldStep c := by
  cases hs : t.state <;> simp_all [TxSession.tick]

/-- A field step that does not end its field: the next bit, and nothing of the exit transition. -/
theorem fieldStep_within {t : TxSession} {k : Nat} (h : t.stepIndex = k + 2) :
    t.fieldStep c =
      ({ t with stepIndex := k + 1, line := t.fieldBit (k + 1) }, .setSignal (t.fieldBit (k + 1)) :: t.armRecurring c) := by
  simp [TxSession.fieldStep, h, TxSession.drive]

/-- A field step that ends its field: bit 0, then the exit transition. -/
theorem fieldStep_last {t : TxSession} (h : t.stepIndex = 1) :
    t.fieldStep c =
      (({ t with stepIndex := 0, line := t.fieldBit 0 } : TxSession).exitTransition.1,
        .setSignal (t.fieldBit 0) ::
          (t.armRecurring c ++ ({ t with stepIndex := 0, line := t.fieldBit 0 } : TxSession).exitTransition.2)) := by
  simp [TxSession.fieldStep, h, TxSession.drive]

/-- No bit but the first preamble bit arms the recurring trigger (40_transmit_framer.md R157). -/
theorem armRecurring_nil {t : TxSession} (h : ¬(t.state = .syncPreamble ∧ t.stepIndex = preambleLen)) :
    t.armRecurring c = [] := if_neg h

/-! ## Demodulator -/

/-- Everything `demod_sample` can do (41_bit_demodulator.md R201). -/
theorem demod_sample_cases (d : Demod) (level : Level) :
    (d.slot = 0 ∧ d.sample c level = ({ d with slot := 1 }, .none)) ∨
    (d.slot ≠ 0 ∧ d.slot + 2 ≤ c.params.n ∧
      d.sample c level = ({ d.tally level with slot := d.slot + 1 }, .none)) ∨
    (d.slot ≠ 0 ∧ c.params.n < d.slot + 2 ∧
      d.sample c level = (⟨0, 0, 0, (d.decision c).lastBit d.lastBit⟩, d.decision c)) := by
  by_cases h : d.slot = 0
  · exact .inl ⟨h, by simp [Demod.sample, h]⟩
  · by_cases h' : d.slot + 2 ≤ c.params.n
    · exact .inr (.inl ⟨h, h', by simp [Demod.sample, h, h']⟩)
    · exact .inr (.inr ⟨h, by omega, by simp [Demod.sample, h, h']⟩)

/-- The decision is never "no bit yet". -/
theorem decision_ne_none (d : Demod) : d.decision c ≠ .none := by
  unfold Demod.decision; split_ifs <;> simp

/-- A demodulator standing before its last slot with the tallies for `b` decides `b`. -/
theorem sample_decides {d : Demod} {b : Bool} (h : d.decides c b) (level : Level) :
    d.sample c level = (.decided b, .bit b) := by
  obtain ⟨hslot, hb⟩ := h
  obtain ⟨hn, hst, -⟩ := Config.facts c
  have h0 : d.slot ≠ 0 := by omega
  have h2 : ¬ d.slot + 2 ≤ c.params.n := by omega
  cases b
  · simp only [Bool.false_eq_true, if_false] at hb
    have hd : d.decision c = .bit false := by
      rw [Demod.decision, if_neg (by unfold threshold; omega), if_pos (by unfold threshold; omega)]
    simp [Demod.sample, h0, h2, hd, Verdict.lastBit, Demod.decided]
  · simp only [if_true] at hb
    have hd : d.decision c = .bit true := by
      rw [Demod.decision, if_pos (by unfold threshold; omega)]
    simp [Demod.sample, h0, h2, hd, Verdict.lastBit, Demod.decided]

/-! ## Synchronizer -/

/-- Everything `collect` can do (43_clock_synchronizer.md R306). -/
theorem collect_cases (y : SyncSession) (level : Level) :
    (level = y.runLevel ∧ y.matched + 1 ≤ y.hi c ∧
      y.collect c level = ({ y with matched := y.matched + 1 }, .more)) ∨
    (level = y.runLevel ∧ y.hi c < y.matched + 1 ∧
      y.collect c level = ({ y with matched := y.matched + 1 }, .fail)) ∨
    (level ≠ y.runLevel ∧ y.lo c ≤ (y.matched : Int) ∧
      y.collect c level = (y, .complete (y.matched + y.wrong))) ∨
    (level ≠ y.runLevel ∧ (y.matched : Int) < y.lo c ∧ y.wrong + 1 ≤ c.params.stol ∧
      y.collect c level = ({ y with wrong := y.wrong + 1 }, .more)) ∨
    (level ≠ y.runLevel ∧ (y.matched : Int) < y.lo c ∧ c.params.stol < y.wrong + 1 ∧
      y.collect c level = ({ y with wrong := y.wrong + 1 }, .fail)) := by
  by_cases h : level = y.runLevel
  · by_cases h' : y.hi c < y.matched + 1
    · exact .inr (.inl ⟨h, h', by simp [SyncSession.collect, h, h']⟩)
    · exact .inl ⟨h, by omega, by simp [SyncSession.collect, h, h']⟩
  · by_cases h' : y.lo c ≤ (y.matched : Int)
    · exact .inr (.inr (.inl ⟨h, h', by simp [SyncSession.collect, h, h']⟩))
    · by_cases h'' : c.params.stol < y.wrong + 1
      · exact .inr (.inr (.inr (.inr ⟨h, by omega, h'', by simp [SyncSession.collect, h, h', h'']⟩)))
      · exact .inr (.inr (.inr (.inl ⟨h, by omega, by omega, by simp [SyncSession.collect, h, h', h'']⟩)))

/-- Everything `finish` can do (43_clock_synchronizer.md R312). -/
theorem finish_cases (y : SyncSession) (ts : Micros) :
    (c.params.rateLo ≤ y.estimate c ts ∧ y.estimate c ts ≤ c.params.rateHi ∧
      y.finish c ts =
        ({ y with detected := micros (y.estimate c ts), state := .done }, .done (micros (y.estimate c ts)))) ∨
    ((y.estimate c ts < c.params.rateLo ∨ c.params.rateHi < y.estimate c ts) ∧
      y.finish c ts = (.reset, .fault .syncRate)) := by
  by_cases h : c.params.rateLo ≤ y.estimate c ts ∧ y.estimate c ts ≤ c.params.rateHi
  · exact .inl ⟨h.1, h.2, by simp [SyncSession.finish, h]⟩
  · refine .inr ⟨by omega, ?_⟩
    rw [SyncSession.finish, if_neg h]

/-- Everything `run_complete` can do (43_clock_synchronizer.md R310, R311). -/
theorem runComplete_cases (y : SyncSession) (level : Level) (ts : Micros) (total : Nat) :
    (y.state = .startSync ∧ y.expectedValid = false ∧
      y.runComplete c level ts total =
        ({ y with expected := total, expectedValid := true, t0 := ts }.newRun level, .none)) ∨
    (¬(y.state = .startSync ∧ y.expectedValid = false) ∧ y.processed + 1 = c.params.syncLength ∧
      y.runComplete c level ts total = SyncSession.finish c { y with processed := y.processed + 1 } ts) ∨
    (¬(y.state = .startSync ∧ y.expectedValid = false) ∧ y.processed + 1 ≠ c.params.syncLength ∧
      y.runComplete c level ts total =
        ({ y with processed := y.processed + 1, state := .sync }.newRun level, .none)) := by
  by_cases h : y.state = .startSync ∧ y.expectedValid = false
  · exact .inl ⟨h.1, h.2, by simp [SyncSession.runComplete, h]⟩
  · by_cases h' : y.processed + 1 = c.params.syncLength
    · refine .inr (.inl ⟨h, h', ?_⟩)
      rw [SyncSession.runComplete, if_neg h]; simp [h']
    · refine .inr (.inr ⟨h, h', ?_⟩)
      rw [SyncSession.runComplete, if_neg h]; simp [h']

/-! ## Receiver -/

/-- Everything `frame_sample` can do (42_receive_framer.md R238). -/
theorem frameSample_cases (r : Receiver) (level : Level) :
    ((r.dm.sample c level).2 = .none ∧ r.frameSample c level = ({ r with dm := (r.dm.sample c level).1 }, [])) ∨
    ((r.dm.sample c level).2 = .fault ∧
      r.frameSample c level = Receiver.abandonFrame c .sampling { r with dm := (r.dm.sample c level).1 }) ∨
    (∃ b, (r.dm.sample c level).2 = .bit b ∧
      r.frameSample c level = Receiver.framerBit c { r with dm := (r.dm.sample c level).1 } b) := by
  unfold Receiver.frameSample
  cases h : (r.dm.sample c level).2 with
  | none => exact .inl ⟨rfl, by simp [h]⟩
  | fault => exact .inr (.inl ⟨rfl, by simp [h]⟩)
  | bit b => exact .inr (.inr ⟨b, rfl, by simp [h]⟩)

/-- `enter_sync_hunt()` leaves the receiver at the start of a hunt with the strategy kept. -/
theorem restart_hunt (r : Receiver) :
    r.restart .syncHunt (nominalSampleUs c) = .freshHunt c r.rx.syncAttached := rfl

theorem sample_stopped {r : Receiver} (h : r.rx.state = .stopped) (level : Level) (ts : Micros) :
    r.sample c level ts = (r, []) := by simp [Receiver.sample, h]

theorem sample_hunt {r : Receiver} (h : r.rx.state = .syncHunt) (level : Level) (ts : Micros) :
    r.sample c level ts = r.hunt c level ts := by simp [Receiver.sample, h]

theorem sample_frame {r : Receiver} (h : r.rx.state.inFrame = true) (level : Level) (ts : Micros) :
    r.sample c level ts = r.frameSample c level := by
  cases hs : r.rx.state <;> simp_all [Receiver.sample, RxState.inFrame]

/-! ## The meanings, one equation each -/

variable (s : State)

theorem exec_reset : exec .reset s = .next (s.clearBlock.complete .ok resetEvents) := rfl

theorem exec_txSend_accepted {len : BitVec 7} (hlen : len.toNat ≤ maxPayload) (hs : s.tx.state = .idle)
    (payload : BitVec 64) (crc : BitVec 16) :
    exec (.txSend payload len crc) s = .next (s.completeTx ((s.tx.openSession payload len crc).tick s.cfg)) := by
  simp [exec, execTxSend, sendLengthOk, hlen, TxSession.busy, hs]

theorem exec_txSend_busy {len : BitVec 7} (hlen : len.toNat ≤ maxPayload) (hs : s.tx.state ≠ .idle)
    (payload : BitVec 64) (crc : BitVec 16) :
    exec (.txSend payload len crc) s = .next (s.complete .busy []) := by
  simp [exec, execTxSend, sendLengthOk, hlen, TxSession.busy, hs]

theorem exec_txSend_refused {len : BitVec 7} (hlen : maxPayload < len.toNat) (payload : BitVec 64) (crc : BitVec 16) :
    exec (.txSend payload len crc) s = .refused (.spellsNoCommand (.sendLengthOver64 len)) := by
  simp [exec, execTxSend, sendLengthOk, Nat.not_le.mpr hlen, refuseWord]

theorem exec_txTick : exec .txTick s = .next (s.fireTx.completeTx (s.tx.tick s.cfg)) := rfl
theorem exec_txCancel : exec .txCancel s = .next (s.completeTx s.tx.cancel) := rfl
theorem exec_rxStart : exec .rxStart s = .next (s.completeRx (s.rcv.start s.cfg)) := rfl
theorem exec_rxStop : exec .rxStop s = .next (s.completeRx s.rcv.stop) := rfl
theorem exec_rxSample (lvl : Level) (ts : Micros) :
    exec (.rxSample lvl ts) s = .next (s.fireRx.completeRx (s.rcv.sample s.cfg lvl ts)) := rfl
theorem exec_rxAttachSync : exec .rxAttachSync s = .next (s.completeRx (s.rcv.selectStrategy true, [])) := rfl
theorem exec_rxDetachSync : exec .rxDetachSync s = .next (s.completeRx (s.rcv.selectStrategy false, [])) := rfl

end Sys2Proof.Machine
end

