-- ==== Sys2Proof/Laws/PerInstr.lean ====
section
/-! SUPPORT. Facts about every command as syntax, one lemma per constructor. -/

namespace Sys2Proof.Laws.EncodeInRow

/-- The word of a command lies in the command's own row of the opcode map (30_encoding.md R104). -/
def Statement (i : Instr) : Prop := inRowOf (encode i) i = true

theorem reset : Statement .reset := by unfold Statement; decide
theorem txTick : Statement .txTick := by unfold Statement; decide
theorem txCancel : Statement .txCancel := by unfold Statement; decide
theorem rxStart : Statement .rxStart := by unfold Statement; decide
theorem rxStop : Statement .rxStop := by unfold Statement; decide
theorem rxAttachSync : Statement .rxAttachSync := by unfold Statement; decide
theorem rxDetachSync : Statement .rxDetachSync := by unfold Statement; decide

theorem txSend (payload : BitVec 64) (len : BitVec 7) (crc : BitVec 16) : Statement (.txSend payload len crc) := by
  rw [Statement, inRowOf, beq_iff_eq]
  have h1 : (maskOf (.txSend payload len crc)).extractLsb' 0 4 = 15#4 := by simp only [maskOf]; decide
  have h2 : (maskOf (.txSend payload len crc)).extractLsb' 16 7 = 0#7 := by simp only [maskOf]; decide
  have h3 : (maskOf (.txSend payload len crc)).extractLsb' 32 16 = 0#16 := by simp only [maskOf]; decide
  have h4 : (maskOf (.txSend payload len crc)).extractLsb' 64 64 = 0#64 := by simp only [maskOf]; decide
  simp [encode, wordFS, or_and, placeAt_and, h1, h2, h3, h4]
  simp only [matchOf]; decide

theorem rxSample (lvl : Level) (ts : Micros) : Statement (.rxSample lvl ts) := by
  rw [Statement, inRowOf, beq_iff_eq]
  have h1 : (maskOf (.rxSample lvl ts)).extractLsb' 0 4 = 15#4 := by simp only [maskOf]; decide
  have h2 : (maskOf (.rxSample lvl ts)).extractLsb' 8 1 = 0#1 := by simp only [maskOf]; decide
  have h3 : (maskOf (.rxSample lvl ts)).extractLsb' 32 32 = 0#32 := by simp only [maskOf]; decide
  simp [encode, wordFR, or_and, placeAt_and, h1, h2, h3]
  simp only [matchOf]; decide

end Sys2Proof.Laws.EncodeInRow
end

