-- ==== Sys2Proof/Tests/Slice0.lean ====
section
/-! SUPPORT. Tests: words and results written out from the spec (V<n> is a row of 95_test_vectors.md, R<n> a rule; none
is the model's own answer), the refusals of ill-formed terms, and for every statement with hypotheses a witness that
meets them. -/

namespace Sys2Proof.Tests

open Sys2Proof Sys2Proof.Machine

/-! ## Small states -/

/-- TC1's block with the given transmitter. -/
def sending (tx : TxSession) : State := { State.reset with tx := tx }

/-- A transmitter session of the message 5, 3, 0xBEEF at a step. -/
def session (state : TxState) (step : Nat) (line : Level) : TxSession :=
  { state := state, stepIndex := step, payload := 5#64, length := 3#7, crc := 0xBEEF#16, line := line }

/-- TC1's block with the given receiver side. -/
def receiving (rcv : Receiver) : State := { State.reset with rcv := rcv }

/-- A receiver hunting at the nominal period. -/
def hunting (attached : Bool) (cr : Nat) (sy : SyncSession) : Receiver :=
  { Receiver.freshHunt Config.tc1 attached with cr := { reg := cr }, sy := sy }

/-- A receiver in a frame: `buffer` of `count` bits, and the demodulator's tallies and slot. -/
def framed (state : RxState) (buffer : BitVec 64) (count : Nat) (len : BitVec 7) (dm : Demod) : Receiver :=
  { rx := { RxFramer.reset with state := state, buffer := buffer, bitIndex := count, length := len,
                                samplePeriod := 100#32 },
    dm := dm, cr := .reset, sy := .reset }

/-- A demodulator before slot 9 with seven or more samples of one level tallied. -/
def ready (low high : Nat) : Demod := { lowCount := low, highCount := high, slot := 9, lastBit := false }

/-- A synchronizer session collecting a run. -/
def collecting (state : SyncState) (level : Level) (matched wrong expected : Nat) (valid : Bool) (processed : Nat)
    (t0 : Micros) : SyncSession :=
  { SyncSession.reset with state := state, runLevel := level, matched := matched, wrong := wrong, expected := expected,
                           expectedValid := valid, processed := processed, t0 := t0 }

/-- The state after a command, or the state itself when the command is refused. -/
def ran (i : Instr) (s : State) : State :=
  match exec i s with
  | .next t => t
  | .fault _ => s
  | .refused _ => s

/-- What a step shows at the ports: the response, the events and STATUS. -/
def shown (i : Instr) (s : State) : Option Resp × List Event × StatusWord :=
  ((ran i s).resp, (ran i s).events, (ran i s).statusWord)

/-- Whether decoding a word gives exactly this command. -/
def spells (c : CommandWord) (i : Instr) : Bool :=
  match decode c with
  | .ok j => decide (j = i)
  | .error _ => false

/-- Whether a word is refused for exactly this reason. -/
def spellsNothing (c : CommandWord) (e : DecodeError) : Bool :=
  match decode c with
  | .ok _ => false
  | .error e' => decide (e' = e)

/-! ## Decoding: words of 30_encoding.md R101, R104 written bit by bit -/

theorem test_decode_reset : spells 0x00000000_00000000_00000000_00000001#128 .reset = true := by decide
theorem test_decode_txSend : spells 0x00000000_0000002d_00001234_00060002#128 (.txSend 0x2D#64 6#7 0x1234#16) = true := by
  decide
theorem test_decode_txSend_longest :
    spells 0xffffffff_ffffffff_0000ffff_00400002#128 (.txSend 0xFFFFFFFFFFFFFFFF#64 64#7 0xFFFF#16) = true := by decide
theorem test_decode_txTick : spells 0x00000000_00000000_00000000_00000003#128 .txTick = true := by decide
theorem test_decode_txCancel : spells 0x00000000_00000000_00000000_00000004#128 .txCancel = true := by decide
theorem test_decode_rxStart : spells 0x00000000_00000000_00000000_00000005#128 .rxStart = true := by decide
theorem test_decode_rxStop : spells 0x00000000_00000000_00000000_00000006#128 .rxStop = true := by decide
theorem test_decode_rxSample : spells 0x00000000_00000000_12345678_00000107#128 (.rxSample true 0x12345678#32) = true := by
  decide
theorem test_decode_rxSample_last : spells 0x00000000_00000000_ffffffff_00000107#128 (.rxSample true 0xFFFFFFFF#32) = true := by
  decide
theorem test_decode_rxAttachSync : spells 0x00000000_00000000_00000000_00000008#128 .rxAttachSync = true := by decide
theorem test_decode_rxDetachSync : spells 0x00000000_00000000_00000000_00000009#128 .rxDetachSync = true := by decide

/-- V49 and both ends of V50. -/
theorem test_undefined_opcodes :
    spellsNothing 0x00000000_00000000_00000000_00000000#128 (.undefinedOpcode 0#4) = true ∧
    spellsNothing 0x00000000_00000000_00000000_0000000a#128 (.undefinedOpcode 10#4) = true ∧
    spellsNothing 0x00000000_00000000_00000000_0000000f#128 (.undefinedOpcode 15#4) = true := by decide

/-- V51, V53, V54: a reserved bit of each format. -/
theorem test_reserved_bits :
    spellsNothing 0x00000000_00000000_00000000_00000013#128
      (.reservedBits 0x00000000_00000000_00000000_00000013#128) = true ∧
    spellsNothing 0x00000000_00000000_00000000_00000207#128
      (.reservedBits 0x00000000_00000000_00000000_00000207#128) = true ∧
    spellsNothing 0x00000001_00000000_00000000_00000007#128
      (.reservedBits 0x00000001_00000000_00000000_00000007#128) = true ∧
    spellsNothing 0x00000000_00000000_00010000_00010002#128
      (.reservedBits 0x00000000_00000000_00010000_00010002#128) = true := by decide

/-- The same words as the host numbers them, and the bytes of R85: byte 0 is bits 7 to 0. -/
theorem test_table_word_and_bytes :
    decodeTableWord 128 0x00000000_0000002d_00001234_00060002 = some (.txSend 0x2D#64 6#7 0x1234#16) ∧
    decodeTableWord 128 0x00000000_00000000_00000000_00000000 = none ∧
    bytesOf 0x00000000_0000002d_00001234_00060002#128 =
      [0x02#8, 0x00#8, 0x06#8, 0x00#8, 0x34#8, 0x12#8, 0x00#8, 0x00#8, 0x2D#8, 0x00#8, 0x00#8, 0x00#8, 0x00#8, 0x00#8,
        0x00#8, 0x00#8] := by decide

/-! ## Well-formedness: each check refuses an ill-formed term -/

/-- V52: LEN 65 is no message of the data model, and LEN 64 is. -/
theorem test_send_length_check :
    (Instr.txSend 0#64 65#7 0#16).wellFormed = false ∧ (Instr.txSend 0#64 127#7 0#16).wellFormed = false ∧
    (Instr.txSend 0#64 64#7 0#16).wellFormed = true ∧
    spellsNothing 0x00000000_00000000_00000000_00410002#128 (.sendLengthOver64 65#7) = true := by decide

/-- 00_scope.md R13, constraint by constraint: each is broken once in a configuration that meets the others. -/
theorem test_parameter_checks :
    ({ Config.tc1.params with n := 2, st := 0 } : Params).wellFormed = false ∧
    ({ Config.tc1.params with st := 4 } : Params).wellFormed = false ∧
    ({ Config.tc1.params with nominalBitPeriodUs := 9 } : Params).wellFormed = false ∧
    ({ Config.tc1.params with nominalBitPeriodUs := 4294967296 } : Params).wellFormed = false ∧
    ({ Config.tc1.params with k := 1 } : Params).wellFormed = false ∧
    ({ Config.tc1.params with k := 37 } : Params).wellFormed = false ∧
    ({ Config.tc1.params with sl := 0 } : Params).wellFormed = false ∧
    ({ Config.tc1.params with sl := 14 } : Params).wellFormed = false ∧
    ({ Config.tc1.params with syncLength := 0 } : Params).wellFormed = false ∧
    ({ Config.tc1.params with syncLength := 7 } : Params).wellFormed = false ∧
    ({ Config.tc1.params with rateLo := 9 } : Params).wellFormed = false ∧
    ({ Config.tc1.params with rateLo := 2501 } : Params).wellFormed = false ∧
    ({ Config.tc1.params with rateHi := 4294967296 } : Params).wellFormed = false ∧
    ({ Config.tc1.params with m := 0 } : Params).wellFormed = false ∧
    ({ Config.tc1.params with m := 3 } : Params).wellFormed = false ∧
    ({ Config.tc1.params with m := 3 } : Params).elaborate = none := by decide

/-- TC1's derived constants (00_scope.md R15). -/
theorem test_tc1_constants :
    threshold Config.tc1 = 7 ∧ nominalSampleUs Config.tc1 = 100#32 ∧ correlatorWidth Config.tc1 = 40 ∧
    reference Config.tc1 = 0xFFC00FFC00 := by decide

/-! ## One step of each command -/

/-- V70. -/
theorem test_txSend_starts :
    shown (.txSend 5#64 3#7 0xBEEF#16) State.reset =
      (some .ok, [.setSignal true, .txSetOneShot 500#32], 0x00001009#32) := by decide
/-- V80. -/
theorem test_txSend_busy :
    shown (.txSend 1#64 1#7 1#16) (sending (session .wakeup 1 true)) = (some .busy, [], 0x00001009#32) := by decide
/-- V72: the first preamble bit arms the recurring trigger. -/
theorem test_txTick_first_preamble_bit :
    shown .txTick (sending (session .syncPreamble 36 false)) =
      (some .ok, [.setSignal true, .txSetRecurring 1000#32], 0x0002300a#32) := by decide
/-- V78: the last CRC bit. -/
theorem test_txTick_completes :
    shown .txTick (sending (session .crc 1 false)) =
      (some .ok, [.setSignal true, .txCancelTrigger, .txComplete], 0x00000008#32) := by decide
/-- V82. -/
theorem test_txCancel :
    shown .txCancel (sending (session .syncPreamble 32 false)) = (some .ok, [.txCancelTrigger], 0#32) := by decide
/-- V83. -/
theorem test_txCancel_idle : shown .txCancel State.reset = (some .ok, [], 0#32) := by decide
/-- V102. -/
theorem test_rxStart : shown .rxStart State.reset = (some .ok, [.rxSetRecurring 100#32], 0x00000010#32) := by decide
/-- V103. -/
theorem test_rxStart_again : shown .rxStart (receiving (hunting false 0 .reset)) = (some .ok, [], 0x00000010#32) := by
  decide
/-- V101. -/
theorem test_rxStop_stopped : shown .rxStop State.reset = (some .ok, [], 0#32) := by decide
/-- 42_receive_framer.md R234's example: in READ_PAYLOAD. -/
theorem test_rxStop :
    shown .rxStop (receiving (framed .readPayload 1#64 2 3#7 (ready 0 0))) = (some .ok, [.rxCancelTrigger], 0#32) := by
  decide
/-- 42_receive_framer.md R235's example: `cr.reg = REF >> 1` and a low sample enter WAIT_START with no event (V15). -/
theorem test_rxSample_static_match :
    shown (.rxSample false 0#32) (receiving (hunting false (0xFFC00FFC00 / 2) .reset)) = (some .ok, [], 0x00000020#32) := by
  decide
/-- V120: the last sample, at ts 10000, ends run 8 and gives 1000 µs. -/
theorem test_rxSample_synchronized :
    shown (.rxSample true 10000#32) (receiving (hunting true 0 (collecting .sync false 10 0 10 true 7 2000#32))) =
      (some .ok, [.rxSynchronized 1000#32, .rxSetRecurring 100#32], 0x000003a0#32) := by decide
/-- V104. -/
theorem test_rxAttachSync :
    shown .rxAttachSync (receiving (hunting false 5 .reset)) = (some .ok, [], 0x00000090#32) ∧
    (ran .rxAttachSync (receiving (hunting false 5 .reset))).rcv.cr.reg = 0 := by decide
/-- V105. -/
theorem test_rxDetachSync :
    shown .rxDetachSync (receiving (hunting true 0 (collecting .sync false 10 0 10 true 7 2000#32))) =
      (some .ok, [], 0x00000010#32) := by decide
/-- V130. -/
theorem test_reset :
    shown .reset { receiving (hunting true 0 .reset) with tx := session .wakeup 1 true } =
      (some .ok, [.txCancelTrigger, .rxCancelTrigger], 0#32) := by decide

/-! ## Witnesses: each statement with hypotheses has states and operands that meet them -/

theorem test_hyp_DecodeInvertsEncode : (Instr.txSend 0#64 64#7 0#16).wellFormed = true := by decide

theorem test_hyp_EncodeInvertsDecode :
    decode 0x00000000_00000000_ffffffff_00000107#128 = .ok (.rxSample true 0xFFFFFFFF#32) := by decide

theorem test_hyp_DecodesExactlyTheRowsOfTheOpcodeMap :
    decode 0x00000000_00000000_00000000_00400002#128 = .ok (.txSend 0#64 64#7 0#16) ∧
    inRowOf 0x00000000_00000000_00000000_00400002#128 (.txSend 0#64 0#7 0#16) = true ∧
    inRowOf 0x00000000_00000000_00000000_00410002#128 (.txSend 0#64 0#7 0#16) = true := by decide

/-- The boundary bits of every reserved range, and the boundary opcodes and lengths. -/
theorem test_hyp_RefusesWordsThatSpellNoCommand :
    (State.reset.placeNext 10#128).inbox = 10#128 :: [] ∧
    CommandWord.opc 0#128 = 0#4 ∧ 10 ≤ (CommandWord.opc 10#128).toNat ∧ 10 ≤ (CommandWord.opc 15#128).toNat ∧
    (CommandWord.opc 0x11#128 = 1#4 ∧ (0x11#128).getLsbD 4 = true) ∧
    (CommandWord.opc 0x80000000_00000000_00000000_00000009#128 = 9#4 ∧
      (0x80000000_00000000_00000000_00000009#128).getLsbD 127 = true) ∧
    (∀ k ∈ [4, 15, 23, 31, 48, 63], CommandWord.opc (2#128 ||| 1#128 <<< k) = 2#4 ∧
      (2#128 ||| 1#128 <<< k).getLsbD k = true) ∧
    (∀ k ∈ [4, 7, 9, 31, 64, 127], CommandWord.opc (7#128 ||| 1#128 <<< k) = 7#4 ∧
      (7#128 ||| 1#128 <<< k).getLsbD k = true) ∧
    (CommandWord.opc 0x410002#128 = 2#4 ∧ 64 < (CommandWord.len 0x410002#128).toNat ∧
      ∀ k : Fin 128, (4 ≤ k.val ∧ k.val ≤ 15) ∨ (23 ≤ k.val ∧ k.val ≤ 31) ∨ (48 ≤ k.val ∧ k.val ≤ 63) →
        (0x410002#128).getLsbD k.val = false) := by decide

theorem test_hyp_WordsAreCarriedLittleEndian :
    (bytesOf 7#128).length = 16 ∧ (List.replicate 15 (0#8)).length ≠ 16 ∧ 15 < 16 ∧ 7 < 8 ∧ 3 < 4 ∧ 31 < 32 := by decide

theorem test_hyp_StatusWordFields :
    (sending (session .payload 64 false)).tx.stepIndex < 128 ∧
    (receiving (framed .readPayload 0#64 64 64#7 .reset)).rcv.rx.bitIndex < 128 := by decide

theorem test_hyp_StepRunsTheDecodedCommand :
    (State.reset.placeNext 3#128).inbox = 3#128 :: [] ∧ decode 3#128 = .ok .txTick ∧ State.reset.inbox = [] := by decide

theorem test_hyp_EveryWellFormedCommandCompletes :
    (Instr.txSend 0#64 64#7 0#16).wellFormed = true ∧ (Instr.rxSample true 0#32).wellFormed = true := by decide

theorem test_hyp_TxSendStartsTheWakeup : State.reset.tx.state = .idle ∧ (64#7).toNat ≤ 64 := by decide

theorem test_hyp_TxSendBusyOrOver64ChangesNothing :
    (sending (session .crc 1 true)).tx.state ≠ .idle ∧ (64#7).toNat ≤ 64 ∧ 64 < (65#7).toNat := by decide

theorem test_hyp_BusyExactlyWhenStatusShowsASession :
    exec (.txSend 1#64 1#7 1#16) (sending (session .wakeup 1 true)) =
      .next (ran (.txSend 1#64 1#7 1#16) (sending (session .wakeup 1 true))) ∧
    exec (.txSend 1#64 1#7 1#16) State.reset = .next (ran (.txSend 1#64 1#7 1#16) State.reset) := ⟨rfl, rfl⟩

theorem test_hyp_TxTickDrivesTheSecondWakeupHalf :
    (sending (session .wakeup 1 true)).tx.state = .wakeup ∧ (sending (session .wakeup 1 true)).tx.stepIndex = 1 := by
  decide

/-- Both ends of the preamble (step 36 arms the trigger, step 35 does not), and each other field at its width. -/
theorem test_hyp_TxTickDrivesTheFieldBit :
    ∀ p ∈ [(TxState.syncPreamble, 36), (.syncPreamble, 35), (.syncPreamble, 2), (.startMarker, 12), (.length, 7),
        (.payload, 3), (.crc, 16), (.crc, 2)],
      (session p.1 p.2 false).state ≠ .idle ∧ (session p.1 p.2 false).state ≠ .wakeup ∧
      (session p.1 p.2 false).stepIndex = (p.2 - 1) + 1 ∧ 1 ≤ p.2 - 1 ∧
      (session p.1 p.2 false).stepIndex ≤ (session p.1 p.2 false).fieldWidth := by decide

theorem test_hyp_TxFieldExits :
    ∀ x ∈ [TxState.syncPreamble, .startMarker, .length, .payload, .crc],
      (session x 1 false).stepIndex = 1 ∧ (session x 1 false).state = x := by decide

theorem test_hyp_TxLengthExitPassesAnEmptyPayload :
    (session .length 1 false).length ≠ 0#7 ∧ ({ session .length 1 false with length := 0#7 } : TxSession).length = 0#7 := by
  decide

theorem test_hyp_FieldsAreSentMostSignificantBitFirst :
    (session .syncPreamble 36 false).stepIndex = 36 ∧ (session .startMarker 12 false).stepIndex = 12 ∧
    (session .length 7 false).stepIndex = 7 ∧ (session .length 7 false).length ≠ 0#7 ∧
    ({ session .length 7 false with length := 0#7 } : TxSession).stepIndex = 7 ∧ (session .crc 16 false).stepIndex = 16 ∧
    (session .payload 3 false).stepIndex = (session .payload 3 false).length.toNat ∧
    1 ≤ (session .payload 3 false).length.toNat ∧ (session .payload 3 false).length.toNat ≤ 64 := by decide

theorem test_hyp_TxIdleAndActive :
    State.reset.tx.state = .idle ∧ (sending (session .length 7 true)).tx.state ≠ .idle := by decide

theorem test_hyp_AWholeFrameIsSent :
    State.reset.tx.state = .idle ∧ (0#7).toNat ≤ 64 ∧ (64#7).toNat ≤ 64 := by decide

theorem test_hyp_RxStartAndStop :
    State.reset.rcv.rx.state = .stopped ∧ (receiving (hunting true 0 .reset)).rcv.rx.state ≠ .stopped := by decide

theorem test_hyp_RxStrategyCommandsSelectTheHunt :
    (receiving (hunting false 9 .reset)).rcv.rx.state = .syncHunt ∧
    (receiving (framed .readCrc 0#64 0 0#7 .reset)).rcv.rx.state ≠ .syncHunt := by decide

theorem test_hyp_SamplesWithoutAConsumerDoNothing :
    State.reset.rcv.rx.state = .stopped ∧
    (hunting true 0 { SyncSession.reset with state := .done }).rx.state = .syncHunt ∧
    (hunting true 0 { SyncSession.reset with state := .done }).rx.syncAttached = true ∧
    (hunting true 0 { SyncSession.reset with state := .done }).sy.state = .done := by decide

theorem test_hyp_StaticHuntShiftsAndMatches :
    (hunting false 0 .reset).rx.state = .syncHunt ∧ (hunting false 0 .reset).rx.syncAttached = false ∧
    (2 * (hunting false 0 .reset).cr.reg + 1) % 2 ^ 40 ≠ reference Config.tc1 ∧
    (2 * (hunting false (0xFFC00FFC00 / 2) .reset).cr.reg + 0) % 2 ^ 40 = reference Config.tc1 := by decide

/-- The pattern of V112. -/
theorem test_hyp_CorrelatorMatchesOnlyTheOversampledPreamble :
    (List.replicate 10 true ++ List.replicate 10 false ++ List.replicate 10 true ++ List.replicate 10 false).length =
      Config.tc1.params.k * Config.tc1.params.n := by decide

theorem test_hyp_FrameSampleInsideACell :
    ∀ slot ∈ [0, 1, 8],
      (framed .waitStart 0#64 0 0#7 { ready 0 0 with slot := slot }).rx.state.inFrame = true ∧
      (slot ≠ 0 → 1 ≤ slot ∧ slot ≤ Config.tc1.params.n - 2) := by decide

theorem test_hyp_SamplingFaultAbandonsTheFrame :
    (framed .readCrc 0#64 0 0#7 (ready 2 6)).rx.state.inFrame = true ∧ (ready 2 6).slot = Config.tc1.params.n - 1 ∧
    (ready 2 6).highCount < Config.tc1.params.n - Config.tc1.params.st - 2 ∧
    (ready 2 6).lowCount < Config.tc1.params.n - Config.tc1.params.st - 2 := by decide

theorem test_hyp_TheFinalSlotDecides :
    Demod.Inv Config.tc1 .reset ∧ Demod.Inv Config.tc1 ⟨0, 0, 1, true⟩ ∧ Demod.Inv Config.tc1 ⟨3, 4, 8, false⟩ ∧
    Demod.Inv Config.tc1 (ready 1 7) ∧ Demod.Inv Config.tc1 (ready 7 1) ∧ Demod.Inv Config.tc1 (ready 2 6) := by
  refine ⟨?_, ?_, ?_, ?_, ?_, ?_⟩ <;> constructor <;> decide

/-- V19, V20 and V25: `k` of 1, 2 and 7 inverted samples, one for each clause. -/
theorem test_hyp_MajorityVoteOfABitCell :
    ∀ p ∈ [([true, false, true, true, true, true, true, true, true, true], 1),
        ([true, false, false, true, true, true, true, true, true, true], 2),
        ([true, false, false, false, false, false, false, false, true, true], 7)],
      p.1.length = Config.tc1.params.n ∧
      p.2 = ((p.1.drop 1).take (Config.tc1.params.n - 2)).countP (fun l => l != true) := by decide

theorem test_decides : Demod.decides Config.tc1 (ready 1 7) true ∧ Demod.decides Config.tc1 (ready 7 1) false := by
  unfold Demod.decides; decide

/-- A match, a bit short of the bound, and the 49th bit: with `test_decides`. -/
theorem test_hyp_WaitStartBitShiftsTheMarkerWindow :
    (2 * (framed .waitStart 0x51C#64 11 0#7 (ready 1 7)).rx.buffer.toNat + 1) % 2 ^ 12 = 0xA39 ∧
    (2 * (framed .waitStart 0#64 47 0#7 (ready 1 7)).rx.buffer.toNat + 1) % 2 ^ 12 ≠ 0xA39 ∧
    (framed .waitStart 0#64 47 0#7 (ready 1 7)).rx.bitIndex < 48 ∧
    48 ≤ (framed .waitStart 0#64 48 0#7 (ready 1 7)).rx.bitIndex ∧
    (framed .waitStart 0#64 48 0#7 (ready 1 7)).rx.state = .waitStart := by decide

/-- Lengths 0, 1, 64 and 65 complete on the seventh bit, and the sixth bit completes nothing: with `test_decides`. -/
theorem test_hyp_ReadLengthBitChecksTheLength :
    (framed .readLength 0#64 6 0#7 (ready 7 1)).rx.state = .readLength ∧
    (∀ p ∈ [(0#64, 0, 0), (0#64, 1, 1), (32#64, 0, 64), (32#64, 1, 65)],
      (p.1 : BitVec 64).toNat < 2 ^ 63 ∧ (p.2.2 : Nat) = 2 * p.1.toNat + p.2.1) ∧
    (framed .readLength 0#64 6 0#7 (ready 7 1)).rx.bitIndex + 1 = 7 ∧
    (framed .readLength 0#64 5 0#7 (ready 7 1)).rx.bitIndex + 1 ≠ 7 := by decide

theorem test_hyp_ReadPayloadBitFillsThePayload :
    (framed .readPayload 0#64 63 64#7 (ready 1 7)).rx.state = .readPayload ∧
    (framed .readPayload 0#64 63 64#7 (ready 1 7)).rx.bitIndex + 1 = (64#7).toNat ∧
    (framed .readPayload 0#64 0 64#7 (ready 1 7)).rx.bitIndex + 1 ≠ (64#7).toNat := by decide

theorem test_hyp_ReadCrcBitReportsTheMessage :
    (framed .readCrc 0#64 15 0#7 (ready 1 7)).rx.state = .readCrc ∧
    (framed .readCrc 0#64 15 0#7 (ready 1 7)).rx.bitIndex + 1 = 16 ∧
    (framed .readCrc 0#64 14 0#7 (ready 1 7)).rx.bitIndex + 1 ≠ 16 := by decide

/-- The marker alone, the marker on the 49th bit, and 49 low bits. -/
theorem test_hyp_TheMarkerIsTakenAtItsFirstOccurrence :
    (framed .waitStart 0#64 0 0#7 .reset).rx.state = .waitStart ∧ (framed .waitStart 0#64 0 0#7 .reset).rx.buffer = 0#64 ∧
    (framed .waitStart 0#64 0 0#7 .reset).rx.bitIndex = 0 ∧
    (∀ k ∈ [0, 37], (List.replicate k false ++ bitsMsb 12 (0xA39#12)).length ≤ 49 ∧
      ((List.replicate k false ++ bitsMsb 12 (0xA39#12)).take (k + 12)).drop (k + 12 - 12) =
        [true, false, true, false, false, false, true, true, true, false, false, true] ∧
      ∀ n ∈ List.range (k + 12), ¬(12 ≤ n ∧ ((List.replicate k false ++ bitsMsb 12 (0xA39#12)).take n).drop (n - 12) =
        [true, false, true, false, false, false, true, true, true, false, false, true])) ∧
    (List.replicate 49 false).length = 49 ∧
    (∀ n ∈ List.range 50, ¬(12 ≤ n ∧ ((List.replicate 49 false).take n).drop (n - 12) =
      [true, false, true, false, false, false, true, true, true, false, false, true])) := by decide

theorem test_hyp_FieldBitsAreReassembled :
    (64#7).toNat ≤ 64 ∧ (framed .readLength 0#64 0 0#7 .reset).rx.state = .readLength ∧
    (framed .readLength 0#64 0 0#7 .reset).rx.buffer = 0#64 ∧ (framed .readLength 0#64 0 0#7 .reset).rx.bitIndex = 0 := by
  decide

theorem test_hyp_StaticReceiverDecodesAnIdealFrame :
    (64#7).toNat ≤ 64 ∧ (receiving (.freshHunt Config.tc1 false)).rcv = .freshHunt Config.tc1 false ∧
    (receiving (.freshHunt Config.tc1 false)).cfg = Config.tc1 := ⟨by decide, rfl, rfl⟩

/-- A high, a low below `SL = 7` highs, and a low at 7. -/
theorem test_hyp_WaitSyncCountsTheLeadingHighs :
    (hunting true 0 { SyncSession.reset with waitHigh := 6 }).sy.state = .waitSync ∧
    (hunting true 0 { SyncSession.reset with waitHigh := 6 }).rx.syncAttached = true ∧
    (hunting true 0 { SyncSession.reset with waitHigh := 6 }).sy.waitHigh < Config.tc1.params.sl ∧
    Config.tc1.params.sl ≤ (hunting true 0 { SyncSession.reset with waitHigh := 7 }).sy.waitHigh := by decide

/-- The first run at `hi = SH = 13`, a later one at `hi = 12` and `lo = 8`, and the wrong samples at STOL = 1. -/
theorem test_hyp_RunCollectionKeepsItsWindow :
    (collecting .startSync false 12 0 0 false 0 0#32).matched + 1 ≤ Config.tc1.params.sh ∧
    Config.tc1.params.sh < (collecting .startSync false 13 0 0 false 0 0#32).matched + 1 ∧
    (collecting .startSync false 6 0 0 false 0 0#32).matched < Config.tc1.params.sl ∧
    (collecting .sync true 11 0 10 true 1 0#32).matched + 1 ≤ 10 + Config.tc1.params.vt ∧
    10 + Config.tc1.params.vt < (collecting .sync true 12 0 10 true 1 0#32).matched + 1 ∧
    (collecting .sync true 7 0 10 true 1 0#32).matched + Config.tc1.params.vt < 10 ∧
    (collecting .sync true 7 0 10 true 1 0#32).wrong < Config.tc1.params.stol ∧
    Config.tc1.params.stol ≤ (collecting .sync true 7 1 10 true 1 0#32).wrong ∧
    (hunting true 0 (collecting .sync true 7 1 10 true 1 0#32)).rx.state = .syncHunt := by decide

theorem test_hyp_FirstLowRunSetsTheExpectedCount :
    true ≠ (collecting .startSync false 7 1 0 false 0 0#32).runLevel ∧
    Config.tc1.params.sl ≤ (collecting .startSync false 7 1 0 false 0 0#32).matched ∧
    (collecting .startSync false 7 1 0 false 0 0#32).expectedValid = false := by decide

theorem test_hyp_ALaterRunCountsAHalfBit :
    (collecting .startSync true 8 0 10 true 0 5#32).expectedValid = true ∧
    false ≠ (collecting .startSync true 8 0 10 true 0 5#32).runLevel ∧
    10 ≤ (collecting .startSync true 8 0 10 true 0 5#32).matched + Config.tc1.params.vt ∧
    (collecting .startSync true 8 0 10 true 0 5#32).processed + 1 ≠ Config.tc1.params.syncLength ∧
    (collecting .sync false 8 0 10 true 6 5#32).processed + 1 ≠ Config.tc1.params.syncLength := by decide

/-- The rate window at both ends: 500 and 2500 µs are inside, 499 and 2501 outside; and the wrap of V127. -/
theorem test_hyp_TheLastRunLocksOrRejectsTheRate :
    (collecting .sync false 10 0 10 true 7 0#32).processed + 1 = Config.tc1.params.syncLength ∧
    10 ≤ (collecting .sync false 10 0 10 true 7 0#32).matched + Config.tc1.params.vt ∧
    (∀ p ∈ [(4000#32, 500), (20007#32, 2500), (3999#32, 499), (20008#32, 2501)],
      ((p.1 : Micros).toNat + 2 ^ 32 - (0#32).toNat) % 2 ^ 32 * Config.tc1.params.m / Config.tc1.params.syncLength = p.2) ∧
    ((7500#32).toNat + 2 ^ 32 - (4294966796#32).toNat) % 2 ^ 32 * Config.tc1.params.m / Config.tc1.params.syncLength =
      1000 := by decide

/-- A run too long: FAULT(SYNC_RUN). -/
theorem test_hyp_SynchronizerFaultLeavesTheFramer :
    exec (.rxSample true 0#32) (receiving (hunting true 0 (collecting .sync true 12 0 10 true 1 0#32))) =
      .next (ran (.rxSample true 0#32) (receiving (hunting true 0 (collecting .sync true 12 0 10 true 1 0#32)))) ∧
    Event.fault .syncRun ∈
      (ran (.rxSample true 0#32) (receiving (hunting true 0 (collecting .sync true 12 0 10 true 1 0#32)))).events :=
  ⟨rfl, by decide⟩

/-- Each occasion of a synchronizer reset: the commands, a synchronizer fault, and a message. -/
theorem test_hyp_SyncResetStartsAFreshSession :
    exec .rxStart State.reset = .next (ran .rxStart State.reset) ∧ State.reset.rcv.rx.state = .stopped ∧
    exec .rxAttachSync State.reset = .next (ran .rxAttachSync State.reset) ∧
    exec (.rxSample true 0#32) (receiving (framed .readCrc 0#64 15 0#7 (ready 1 7))) =
      .next (ran (.rxSample true 0#32) (receiving (framed .readCrc 0#64 15 0#7 (ready 1 7)))) ∧
    Event.rxMessage 0#64 0#7 1#16 ∈
      (ran (.rxSample true 0#32) (receiving (framed .readCrc 0#64 15 0#7 (ready 1 7)))).events :=
  ⟨rfl, by decide, rfl, rfl, by decide⟩

/-- The synchronizer's state changes: WAIT_SYNC to START_SYNC on the low sample after SL highs. -/
theorem test_hyp_SynchronizerStatesAdvanceInOrder :
    exec (.rxSample false 0#32) (receiving (hunting true 0 { SyncSession.reset with waitHigh := 7 })) =
      .next (ran (.rxSample false 0#32) (receiving (hunting true 0 { SyncSession.reset with waitHigh := 7 }))) ∧
    (ran (.rxSample false 0#32) (receiving (hunting true 0 { SyncSession.reset with waitHigh := 7 }))).rcv.sy.state ≠
      (receiving (hunting true 0 { SyncSession.reset with waitHigh := 7 })).rcv.sy.state := ⟨rfl, by decide⟩

/-- A state of the invariant one sample before the lock: the agents hold what the receiver asked for. -/
def aboutToLock : State :=
  { receiving (hunting true 0 (collecting .sync false 10 0 10 true 7 2000#32)) with
    agents := { Agents.powerOn with rxTrigger := .recurring 100#32 } }

theorem test_hyp_RecoveryEndsOnAHighSample :
    aboutToLock.Inv ∧ exec (.rxSample true 10000#32) aboutToLock = .next (ran (.rxSample true 10000#32) aboutToLock) ∧
    Event.rxSynchronized 1000#32 ∈ (ran (.rxSample true 10000#32) aboutToLock).events := by
  refine ⟨⟨by constructor <;> decide, ?_, by constructor <;> decide, by decide⟩, rfl, by decide⟩
  refine ⟨by constructor <;> decide, by constructor <;> decide, by decide, by decide, by decide, ?_, by decide, by decide,
    by decide, by decide, by decide, by decide, by decide⟩
  refine ⟨by decide, fun h => absurd h (by decide), fun _ => ⟨by constructor <;> decide, by decide, by decide, by decide⟩,
    by decide⟩

/-- A state of the invariant one sample before a message. -/
def aboutToReport : State :=
  { receiving (framed .readCrc 0#64 15 0#7 (ready 1 7)) with
    agents := { Agents.powerOn with rxTrigger := .recurring 100#32 } }

theorem test_hyp_AMessageComesOnlyFromACompleteFrame :
    aboutToReport.Inv ∧ exec (.rxSample true 0#32) aboutToReport = .next (ran (.rxSample true 0#32) aboutToReport) ∧
    Event.rxMessage 0#64 0#7 1#16 ∈ (ran (.rxSample true 0#32) aboutToReport).events := by
  refine ⟨⟨by constructor <;> decide, ?_, by constructor <;> decide, by decide⟩, rfl, by decide⟩
  refine ⟨by constructor <;> decide, by constructor <;> decide, by decide, by decide, by decide, ?_, by decide, by decide,
    by decide, by decide, by decide, by decide, by decide⟩
  exact ⟨by decide, fun h => absurd h (by decide), fun h => absurd h (by decide), by decide⟩

/-- Ten samples a run at 100 µs, and the window's ends 7 and 13. -/
theorem test_hyp_ACleanPreambleIsLocked :
    ∀ h ∈ [7, 10, 13], Config.tc1.params.sl ≤ h ∧ h ≤ Config.tc1.params.sh ∧
      Config.tc1.params.syncLength * (h * (100#32).toNat) < 2 ^ 32 ∧
      Config.tc1.params.rateLo ≤ h * (100#32).toNat * Config.tc1.params.m ∧
      h * (100#32).toNat * Config.tc1.params.m ≤ Config.tc1.params.rateHi := by decide

theorem test_hyp_TheTwoSidesDoNotInterfere :
    exec .txTick (sending (session .crc 16 false)) = .next (ran .txTick (sending (session .crc 16 false))) ∧
    exec .txTick { receiving (hunting true 0 .reset) with tx := session .crc 16 false } =
      .next (ran .txTick { receiving (hunting true 0 .reset) with tx := session .crc 16 false }) ∧
    Instr.txTick.isTx = true ∧
    exec .rxStart State.reset = .next (ran .rxStart State.reset) ∧
    exec .rxStart (sending (session .crc 16 false)) = .next (ran .rxStart (sending (session .crc 16 false))) ∧
    Instr.rxStart.isRx = true := ⟨rfl, rfl, rfl, rfl, rfl, rfl⟩

theorem test_hyp_TxAndRxCommandsCommute :
    (Instr.txSend 0#64 64#7 0#16).isTx = true ∧ (Instr.rxSample true 0#32).isRx = true ∧
    (Instr.txSend 0#64 64#7 0#16).wellFormed = true := by decide

theorem test_hyp_NoFaultIsFatalOrLatched :
    ({ sending (session .crc 16 false) with events := [.fault .sampling] } : State).tx = (sending (session .crc 16 false)).tx ∧
    ({ sending (session .crc 16 false) with events := [.fault .sampling] } : State).events ≠
      (sending (session .crc 16 false)).events := ⟨rfl, by decide⟩

theorem test_hyp_AtMostOneFaultAndItComesFirst :
    exec (.rxSample true 0#32) (receiving (framed .readCrc 0#64 0 0#7 (ready 2 6))) =
      .next (ran (.rxSample true 0#32) (receiving (framed .readCrc 0#64 0 0#7 (ready 2 6)))) ∧
    (ran (.rxSample true 0#32) (receiving (framed .readCrc 0#64 0 0#7 (ready 2 6)))).events =
      [.fault .sampling, .rxCancelTrigger, .rxSetRecurring 100#32] := ⟨rfl, by decide⟩

/-- A step from a state of the invariant: the state just before the lock, with its sample delivered (V47's word form). -/
theorem test_hyp_InvariantKeptByEveryStep :
    aboutToReport.Inv ∧ step (aboutToReport.withFetchWord 128 0x00000000_00000000_00000000_00000107) =
      .next (ran (.rxSample true 0#32) aboutToReport) :=
  ⟨test_hyp_AMessageComesOnlyFromACompleteFrame.1, rfl⟩

end Sys2Proof.Tests
end

section
/-! The two sides do not interfere (10_state.md R31): a command that acts within one side is a function of the
configuration and that side alone, and leaves the other side as it was. -/

namespace Sys2Proof.Machine

/-! ## Acting within one side -/

/-- What `i` makes of the part `own` of the state, its events and its response are a function of the configuration and
`own` alone, and `i` leaves the part `other` as it was. -/
def ActsWithin {α β : Type} (own : State → α) (other : State → β) (i : Instr) : Prop :=
  ∃ f : Config → α → α × List Event × Option Resp, ∀ s s', exec i s = .next s' →
    (own s', s'.events, s'.resp) = f s.cfg (own s) ∧ other s' = other s

/-- Two runs of a command that acts within `own`, from states that agree on the configuration and on `own`. -/
theorem ActsWithin.two_runs {α β : Type} {own : State → α} {other : State → β} {i : Instr}
    (hi : ActsWithin own other i) {s s' u u' : State} (hs : exec i s = .next s') (hu : exec i u = .next u')
    (hcfg : s.cfg = u.cfg) (hown : own s = own u) :
    own s' = own u' ∧ s'.events = u'.events ∧ s'.resp = u'.resp ∧ other s' = other s ∧ other u' = other u := by
  obtain ⟨f, hf⟩ := hi
  obtain ⟨hsf, hsother⟩ := hf s s' hs
  obtain ⟨huf, huother⟩ := hf u u' hu
  have hsame : (own s', s'.events, s'.resp) = (own u', u'.events, u'.resp) := by rw [hsf, huf, hcfg, hown]
  obtain ⟨hown', hevents, hresp⟩ : own s' = own u' ∧ s'.events = u'.events ∧ s'.resp = u'.resp := by
    simpa using hsame
  exact ⟨hown', hevents, hresp, hsother, huother⟩

/-! ## The commands of each side -/

/-- A step that ends by `completeTx` with a body that reads `tx` alone acts within `tx`; `t` is the state in which the
body ends, past a firing of the trigger. -/
theorem actsWithin_tx_of_completeTx {i : Instr} (body : Config → TxSession → TxSession × List Event)
    (h : ∀ s, ∃ t : State, t.rcv = s.rcv ∧ exec i s = .next (t.completeTx (body s.cfg s.tx))) :
    ActsWithin State.tx State.rcv i := by
  refine ⟨fun c x => ((body c x).1, (body c x).2, some .ok), fun s s' hs => ?_⟩
  obtain ⟨t, hrcv, ht⟩ := h s
  obtain rfl : t.completeTx (body s.cfg s.tx) = s' := by simpa [ht] using hs
  simp [hrcv]

/-- A step that ends by `completeRx` with a body that reads the receiver side alone acts within the receiver side. -/
theorem actsWithin_rcv_of_completeRx {i : Instr} (body : Config → Receiver → Receiver × List Event)
    (h : ∀ s, ∃ t : State, t.tx = s.tx ∧ exec i s = .next (t.completeRx (body s.cfg s.rcv))) :
    ActsWithin State.rcv State.tx i := by
  refine ⟨fun c x => ((body c x).1, (body c x).2, some .ok), fun s s' hs => ?_⟩
  obtain ⟨t, htx, ht⟩ := h s
  obtain rfl : t.completeRx (body s.cfg s.rcv) = s' := by simpa [ht] using hs
  simp [htx]

/-- What a TX_SEND that is not refused makes of `tx`, its events and its response (40_transmit_framer.md R151, R169). -/
def TxSession.send (payload : BitVec 64) (len : BitVec 7) (crc : BitVec 16) (c : Config) (t : TxSession) :
    TxSession × List Event × Option Resp :=
  if t.state = .idle then
    (((t.openSession payload len crc).tick c).1, ((t.openSession payload len crc).tick c).2, some .ok)
  else (t, [], some .busy)

/-- TX_SEND, the one command with two responses: whether it answers BUSY is read off `tx` itself. -/
theorem actsWithin_tx_txSend (payload : BitVec 64) (len : BitVec 7) (crc : BitVec 16) :
    ActsWithin State.tx State.rcv (.txSend payload len crc) := by
  refine ⟨TxSession.send payload len crc, fun s s' hs => ?_⟩
  by_cases hlen : len.toNat ≤ maxPayload
  · by_cases hidle : s.tx.state = .idle
    · rw [exec_txSend_accepted s hlen hidle] at hs
      cases hs
      simp [TxSession.send, hidle]
    · rw [exec_txSend_busy s hlen hidle] at hs
      cases hs
      simp [TxSession.send, hidle]
  · rw [exec_txSend_refused s (Nat.not_le.mp hlen)] at hs
    cases hs

theorem actsWithin_tx_of_isTx {i : Instr} (hi : i.isTx = true) : ActsWithin State.tx State.rcv i := by
  cases i with
  | txSend payload len crc => exact actsWithin_tx_txSend payload len crc
  | txTick => exact actsWithin_tx_of_completeTx TxSession.tick fun s => ⟨s.fireTx, fireTx_rcv s, exec_txTick s⟩
  | txCancel => exact actsWithin_tx_of_completeTx (fun _ t => t.cancel) fun s => ⟨s, rfl, exec_txCancel s⟩
  | reset | rxStart | rxStop | rxSample | rxAttachSync | rxDetachSync => cases hi

theorem actsWithin_rcv_of_isRx {i : Instr} (hi : i.isRx = true) : ActsWithin State.rcv State.tx i := by
  cases i with
  | rxStart => exact actsWithin_rcv_of_completeRx Receiver.start fun s => ⟨s, rfl, exec_rxStart s⟩
  | rxStop => exact actsWithin_rcv_of_completeRx (fun _ r => r.stop) fun s => ⟨s, rfl, exec_rxStop s⟩
  | rxSample lvl ts =>
    exact actsWithin_rcv_of_completeRx (fun c r => r.sample c lvl ts) fun s =>
      ⟨s.fireRx, fireRx_tx s, exec_rxSample s lvl ts⟩
  | rxAttachSync =>
    exact actsWithin_rcv_of_completeRx (fun _ r => (r.selectStrategy true, [])) fun s => ⟨s, rfl, exec_rxAttachSync s⟩
  | rxDetachSync =>
    exact actsWithin_rcv_of_completeRx (fun _ r => (r.selectStrategy false, [])) fun s =>
      ⟨s, rfl, exec_rxDetachSync s⟩
  | reset | txSend | txTick | txCancel => cases hi

/-- Settles O54: each side's commands act within that side, and two runs of such a command from states that agree on the
side agree on all it does. -/
theorem theTwoSidesDoNotInterfere : Obligations.TheTwoSidesDoNotInterfere := by
  unfold Obligations.TheTwoSidesDoNotInterfere
  intro i s s' u u' hs hu hcfg
  exact ⟨fun hi htx => (actsWithin_tx_of_isTx hi).two_runs hs hu hcfg htx,
    fun hi hrcv => (actsWithin_rcv_of_isRx hi).two_runs hs hu hcfg hrcv⟩

end Sys2Proof.Machine
end

section
/-! The carriage of a word as bytes (20_memory.md R85): byte `k` holds bits `8k` to `8k+7`, so a word and its 16 bytes
determine each other bit by bit. -/

namespace Sys2Proof

/-! ## Taking a word apart -/

@[simp] theorem length_bytesOf (c : CommandWord) : (bytesOf c).length = 16 := by simp [bytesOf]

theorem getElem?_bytesOf (c : CommandWord) {k : Nat} (hk : k < 16) : (bytesOf c)[k]? = some (byteOf c k) := by
  simp [bytesOf, hk]

theorem getLsbD_byteOf (c : CommandWord) (k : Nat) {i : Nat} (hi : i < 8) :
    (byteOf c k).getLsbD i = c.getLsbD (8 * k + i) := by
  simp [byteOf, hi]

theorem getLsbD_group32 (c : CommandWord) (k : Nat) {i : Nat} (hi : i < 32) :
    (group32 c k).getLsbD i = c.getLsbD (32 * k + i) := by
  simp [group32, hi]

/-! ## Putting bytes together -/

/-- The lowest byte of the number is the first of the string, and the number above it is spelled by the rest. -/
theorem testBit_natOfBytes_cons (b : Byte) (bs : List Byte) (j : Nat) :
    (natOfBytes (b :: bs)).testBit j = if j < 8 then b.getLsbD j else (natOfBytes bs).testBit (j - 8) := by
  rw [natOfBytes, Nat.add_comm, BitVec.getLsbD]
  exact Nat.testBit_two_pow_mul_add (natOfBytes bs) b.isLt j

/-- Bit `8k+i` of the number is bit `i` of byte `k`, and past the end of the string it is 0. -/
theorem testBit_natOfBytes (bs : List Byte) (k : Nat) {i : Nat} (hi : i < 8) :
    (natOfBytes bs).testBit (8 * k + i) = (bs[k]?.getD 0#8).getLsbD i := by
  induction bs generalizing k with
  | nil => simp [natOfBytes]
  | cons b bs ih =>
    rw [testBit_natOfBytes_cons]
    cases k with
    | zero => simp [hi]
    | succ k =>
      have hge : ¬ 8 * (k + 1) + i < 8 := by omega
      have hsub : 8 * (k + 1) + i - 8 = 8 * k + i := by omega
      rw [if_neg hge, hsub, ih k, List.getElem?_cons_succ]

theorem getLsbD_wordOfBytes (bs : List Byte) {k i : Nat} (hk : k < 16) (hi : i < 8) :
    (wordOfBytes bs).getLsbD (8 * k + i) = (bs[k]?.getD 0#8).getLsbD i := by
  have hlt : 8 * k + i < 128 := by omega
  rw [wordOfBytes, BitVec.getLsbD_ofNat, testBit_natOfBytes bs k hi]
  simp [hlt]

/-! ## The carriage loses nothing -/

theorem wordOfBytes_bytesOf (c : CommandWord) : wordOfBytes (bytesOf c) = c := by
  apply BitVec.eq_of_getLsbD_eq
  intro j hj
  have hk : j / 8 < 16 := by omega
  have hi : j % 8 < 8 := Nat.mod_lt j (by decide)
  rw [← Nat.div_add_mod j 8, getLsbD_wordOfBytes _ hk hi, getElem?_bytesOf c hk, Option.getD_some,
    getLsbD_byteOf c _ hi]

theorem byteOf_wordOfBytes {bs : List Byte} {k : Nat} (hk : k < 16) : byteOf (wordOfBytes bs) k = bs[k]?.getD 0#8 :=
  extract_eq fun _ hi => getLsbD_wordOfBytes bs hk hi

theorem bytesOf_wordOfBytes {bs : List Byte} (hlen : bs.length = 16) : bytesOf (wordOfBytes bs) = bs := by
  apply List.ext_getElem?
  intro k
  by_cases hk : k < 16
  · have hget : k < bs.length := hlen ▸ hk
    rw [getElem?_bytesOf _ hk, byteOf_wordOfBytes hk, List.getElem?_eq_getElem hget, Option.getD_some]
  · rw [List.getElem?_eq_none (by simpa using hk), List.getElem?_eq_none (by omega)]

/-- A byte string that is not one word is refused by its length (notes/assumptions/9.md). -/
theorem decodeBytes_of_length_ne {bs : List Byte} (hlen : bs.length ≠ 16) :
    decodeBytes bs = .error (.notOneWord bs.length) := if_neg hlen

/-- Settles O6: byte and group bits are bits of the word, and bit `8k+i` of the word put together is bit `i` of byte `k`,
so the two directions invert each other. -/
theorem wordsAreCarriedLittleEndian : Obligations.WordsAreCarriedLittleEndian := by
  unfold Obligations.WordsAreCarriedLittleEndian
  refine ⟨fun c k i hk hi => ?_, fun c k i _ hi => getLsbD_group32 c k hi, wordOfBytes_bytesOf,
    fun _ => bytesOf_wordOfBytes, fun _ => decodeBytes_of_length_ne⟩
  rw [getElem?_bytesOf c hk, Option.map_some, getLsbD_byteOf c k hi]

end Sys2Proof
end

section
/-! One sample of the demodulator by the slot it falls in (41_bit_demodulator.md R201): the first slot is discarded, an
inner slot is tallied, and the last slot decides or faults. -/

namespace Sys2Proof.Machine

variable {c : Config} {d : Demod} (level : Level)

@[simp] theorem tally_high : d.tally true = { d with highCount := d.highCount + 1 } := rfl
@[simp] theorem tally_low : d.tally false = { d with lowCount := d.lowCount + 1 } := rfl

/-! ## The three kinds of slot -/

theorem sample_firstSlot (h : d.slot = 0) : d.sample c level = ({ d with slot := 1 }, .none) := if_pos h

theorem sample_innerSlot (h : 1 ≤ d.slot) (h' : d.slot + 2 ≤ c.params.n) :
    d.sample c level = ({ d.tally level with slot := d.slot + 1 }, .none) := by
  have h0 : d.slot ≠ 0 := by omega
  rw [Demod.sample, if_neg h0, if_pos h']

theorem sample_lastSlot (h : d.slot + 1 = c.params.n) :
    d.sample c level = (⟨0, 0, 0, (d.decision c).lastBit d.lastBit⟩, d.decision c) := by
  obtain ⟨hn, -⟩ := Config.facts c
  have h0 : d.slot ≠ 0 := by omega
  have h2 : ¬ d.slot + 2 ≤ c.params.n := by omega
  rw [Demod.sample, if_neg h0, if_neg h2]

/-! ## The decision of the last slot -/

theorem decision_fault (hhigh : d.highCount < threshold c) (hlow : d.lowCount < threshold c) :
    d.decision c = .fault := by
  rw [Demod.decision, if_neg (Nat.not_le.mpr hhigh), if_neg (Nat.not_le.mpr hlow)]

/-- Neither tally reaches `T` (R205): a sampling fault, the bit decided last kept. -/
theorem sample_faults (h : d.slot + 1 = c.params.n) (hhigh : d.highCount < threshold c)
    (hlow : d.lowCount < threshold c) : d.sample c level = (⟨0, 0, 0, d.lastBit⟩, .fault) := by
  rw [sample_lastSlot level h, decision_fault hhigh hlow, Verdict.lastBit]

theorem decides_high (h : d.slot + 1 = c.params.n) (hhigh : threshold c ≤ d.highCount) : d.decides c true := by
  unfold threshold at hhigh
  have hreached : c.params.n ≤ d.highCount + c.params.st + 2 := by omega
  exact ⟨h, hreached⟩

/-- The `N-2` tallied samples are too few for both tallies to reach `T` (R206), so a low tally that does is decided
although the high one is tested first. -/
theorem decides_low (hinv : d.Inv c) (h : d.slot + 1 = c.params.n) (hlow : threshold c ≤ d.lowCount) :
    d.decides c false := by
  obtain ⟨-, htallies⟩ := hinv
  obtain ⟨-, hst, -⟩ := Config.facts c
  unfold threshold at hlow
  have hreached : c.params.n ≤ d.lowCount + c.params.st + 2 := by omega
  have hshort : d.highCount + c.params.st + 2 < c.params.n := by omega
  exact ⟨h, hshort, hreached⟩

/-- Settles O33, by the slot the sample falls in; at the last slot, by the tally that has reached `T`. -/
theorem theFinalSlotDecides : Obligations.TheFinalSlotDecides := by
  unfold Obligations.TheFinalSlotDecides
  intro c d level hinv
  obtain ⟨hn, -⟩ := Config.facts c
  refine ⟨sample_firstSlot level, fun hone hinner => ?_, fun hslot => ?_⟩
  · have hinner' : d.slot + 2 ≤ c.params.n := by omega
    rw [sample_innerSlot level hone hinner']
    constructor <;> rintro rfl <;> simp
  · have hlast : d.slot + 1 = c.params.n := by omega
    exact ⟨fun hhigh => sample_decides c (decides_high hlast hhigh) level,
      fun hlow => sample_decides c (decides_low hinv hlast hlow) level, sample_faults level hlast⟩

end Sys2Proof.Machine
end

section
/-! A synchronizer fault and the rest of the block (42_receive_framer.md R256): a fault that the synchronizer returns
has already reset the session, no frame state reports a fault with a synchronizer's code, and the hunt reports what the
synchronizer returns and nothing beside it. -/

namespace Sys2Proof.Machine

variable {c : Config} {code : FaultCode}

/-! ## The synchronizer resets itself before it returns a fault (43_clock_synchronizer.md R315) -/

section
variable {y : SyncSession} {level : Level} {ts : Micros}

theorem finish_eq_of_fault (h : (y.finish c ts).2 = .fault code) : y.finish c ts = (.reset, .fault code) := by
  obtain ⟨-, -, hdone⟩ | ⟨-, hfault⟩ := finish_cases c y ts
  · simp [hdone] at h
  · rw [hfault] at h ⊢
    rw [← h]

theorem runComplete_eq_of_fault {total : Nat} (h : (y.runComplete c level ts total).2 = .fault code) :
    y.runComplete c level ts total = (.reset, .fault code) := by
  obtain ⟨-, -, hfirst⟩ | ⟨-, -, hlast⟩ | ⟨-, -, hlater⟩ := runComplete_cases c y level ts total
  · simp [hfirst] at h
  · rw [hlast] at h ⊢
    exact finish_eq_of_fault h
  · simp [hlater] at h

theorem collectRun_eq_of_fault (h : (y.collectRun c level ts).2 = .fault code) :
    y.collectRun c level ts = (.reset, .fault code) := by
  unfold SyncSession.collectRun at h ⊢
  cases hrun : (y.collect c level).2 with
  | more => simp [hrun] at h
  | fail => simpa [hrun] using h
  | complete total =>
    simp only [hrun] at h ⊢
    exact runComplete_eq_of_fault h

theorem syncSample_eq_of_fault (h : (y.sample c level ts).2 = .fault code) :
    y.sample c level ts = (.reset, .fault code) := by
  unfold SyncSession.sample at h ⊢
  cases hstate : y.state with
  | waitSync | done => simp [hstate] at h
  | startSync | sync =>
    simp only [hstate] at h ⊢
    exact collectRun_eq_of_fault h

end

variable {r : Receiver} {level : Level} {ts : Micros}

/-! ## The faults of the frame states -/

theorem fault_mem_abandonFrame {code' : FaultCode} : .fault code ∈ (r.abandonFrame c code').2 ↔ code = code' := by
  simp

theorem code_of_fault_mem_waitStartBit {b : Bool} (h : .fault code ∈ (r.waitStartBit c b).2) : code = .syncLost := by
  simp only [Receiver.waitStartBit] at h
  split_ifs at h
  · simp at h
  · exact fault_mem_abandonFrame.mp h
  · simp at h

theorem code_of_fault_mem_readLengthBit {b : Bool} (h : .fault code ∈ (r.readLengthBit c b).2) :
    code = .frameInvalid := by
  simp only [Receiver.readLengthBit, Receiver.lengthDone] at h
  split_ifs at h
  · exact fault_mem_abandonFrame.mp h
  all_goals simp at h

theorem readPayloadBit_events {b : Bool} : (r.readPayloadBit b).2 = [] := by
  simp only [Receiver.readPayloadBit]
  split_ifs <;> rfl

theorem fault_notMem_readCrcBit {b : Bool} : .fault code ∉ (r.readCrcBit c b).2 := by
  simp only [Receiver.readCrcBit, Receiver.crcDone]
  split_ifs <;> simp

theorem code_of_fault_mem_framerBit {b : Bool} (h : .fault code ∈ (r.framerBit c b).2) :
    code = .syncLost ∨ code = .frameInvalid := by
  unfold Receiver.framerBit at h
  cases hstate : r.rx.state <;> simp only [hstate] at h
  case stopped | syncHunt => simp at h
  case waitStart => exact .inl (code_of_fault_mem_waitStartBit h)
  case readLength => exact .inr (code_of_fault_mem_readLengthBit h)
  case readPayload => simp [readPayloadBit_events] at h
  case readCrc => exact absurd h fault_notMem_readCrcBit

theorem code_of_fault_mem_frameSample (h : .fault code ∈ (r.frameSample c level).2) :
    code = .sampling ∨ code = .syncLost ∨ code = .frameInvalid := by
  obtain ⟨-, hnone⟩ | ⟨-, hfault⟩ | ⟨b, -, hbit⟩ := frameSample_cases c r level
  · simp [hnone] at h
  · rw [hfault] at h
    exact .inl (fault_mem_abandonFrame.mp h)
  · rw [hbit] at h
    exact .inr (code_of_fault_mem_framerBit h)

/-! ## The faults of the hunt -/

theorem staticCorrelate_events : (r.staticCorrelate c level).2 = [] := by
  simp only [Receiver.staticCorrelate]
  split_ifs <;> rfl

/-- A fault reported by the dynamic hunt is the one the synchronizer returned. -/
theorem dynamicHunt_eq_of_fault_mem (h : .fault code ∈ (r.dynamicHunt c level ts).2) :
    r.dynamicHunt c level ts = ({ r with sy := .reset }, [.fault code]) := by
  unfold Receiver.dynamicHunt at h ⊢
  cases hresult : (r.sy.sample c level ts).2 with
  | none => simp [hresult] at h
  | fault code' =>
    obtain rfl : code = code' := by simpa [hresult] using h
    simp [syncSample_eq_of_fault hresult]
  | done period => simp [hresult, Receiver.synchronized] at h

theorem hunt_eq_of_fault_mem (h : .fault code ∈ (r.hunt c level ts).2) :
    r.hunt c level ts = ({ r with sy := .reset }, [.fault code]) := by
  unfold Receiver.hunt at h ⊢
  split_ifs at h ⊢
  · exact dynamicHunt_eq_of_fault_mem h
  · simp [staticCorrelate_events] at h

/-- A fault with a synchronizer's code is reported in the hunt alone, and the step resets the session and does nothing
else to the receiver side. -/
theorem receiverSample_of_syncFault_mem (hcode : code = .syncRun ∨ code = .syncRate)
    (h : .fault code ∈ (r.sample c level ts).2) :
    r.rx.state = .syncHunt ∧ r.sample c level ts = ({ r with sy := .reset }, [.fault code]) := by
  cases hstate : r.rx.state with
  | stopped => simp [sample_stopped c hstate] at h
  | syncHunt =>
    rw [sample_hunt c hstate] at h ⊢
    exact ⟨rfl, hunt_eq_of_fault_mem h⟩
  | waitStart | readLength | readPayload | readCrc =>
    have hframe : r.rx.state.inFrame = true := by rw [hstate]; rfl
    rw [sample_frame c hframe] at h
    obtain rfl | rfl := hcode <;> simpa using code_of_fault_mem_frameSample h

/-- Settles O47: the receiver side of such a step is known whole, and FAULT, its one event, asks the collaborators for
nothing, so the RX trigger has only fired. -/
theorem synchronizerFaultLeavesTheFramer : Obligations.SynchronizerFaultLeavesTheFramer := by
  unfold Obligations.SynchronizerFaultLeavesTheFramer
  intro s t lvl ts code hexec hcode hfault
  obtain rfl : s.fireRx.completeRx (s.rcv.sample s.cfg lvl ts) = t := by simpa [exec_rxSample] using hexec
  obtain ⟨hhunt, hsample⟩ := receiverSample_of_syncFault_mem hcode hfault
  rw [hsample]
  refine ⟨hhunt, rfl, rfl, rfl, rfl, rfl, fun us hrecurring => ?_⟩
  simp [Agents.observe, hrecurring, Trigger.fire]

end Sys2Proof.Machine
end

section
/-! The synchronizer session over every command (43_clock_synchronizer.md R301, R302): a step resets the session, or it
moves the session's state forward or not at all and then reports neither a fault nor a message. -/

namespace Sys2Proof.Machine

/-! ## Forward moves and quiet steps -/

/-- The moves a synchronizer state makes without a reset, staying among them (R302). -/
inductive SyncState.Forward : SyncState → SyncState → Prop where
  | stay (x : SyncState) : Forward x x
  | start : Forward .waitSync .startSync
  | run : Forward .startSync .sync
  | finishFirst : Forward .startSync .done
  | finish : Forward .sync .done

/-- A fault or a message: each comes with a fresh session (R301). -/
def Event.isReport : Event → Bool
  | .fault _ => true
  | .rxMessage _ _ _ => true
  | _ => false

/-- No event of the list is a fault or a message. -/
def Quiet (es : List Event) : Prop := ∀ e ∈ es, e.isReport = false

@[simp] theorem quiet_nil : Quiet [] := by simp [Quiet]

@[simp] theorem quiet_cons {e : Event} {es : List Event} : Quiet (e :: es) ↔ e.isReport = false ∧ Quiet es := by
  simp [Quiet]

@[simp] theorem quiet_append {es fs : List Event} : Quiet (es ++ fs) ↔ Quiet es ∧ Quiet fs := by
  simp [Quiet, or_imp, forall_and]

theorem Quiet.fault_notMem {es : List Event} (h : Quiet es) (code : FaultCode) : .fault code ∉ es :=
  fun hmem => Bool.noConfusion (h _ hmem)

theorem Quiet.rxMessage_notMem {es : List Event} (h : Quiet es) (payload : BitVec 64) (len : BitVec 7)
    (crc : BitVec 16) : .rxMessage payload len crc ∉ es :=
  fun hmem => Bool.noConfusion (h _ hmem)

/-- What a step that emits `es` makes of the session `y`: a fresh one, or a forward move without a report. -/
def SyncSession.ResetOrForward (y y' : SyncSession) (es : List Event) : Prop :=
  y' = .reset ∨ y.state.Forward y'.state ∧ Quiet es

theorem SyncSession.ResetOrForward.kept {y : SyncSession} {es : List Event} (h : Quiet es) : y.ResetOrForward y es :=
  .inr ⟨.stay y.state, h⟩

/-! ## A sample of the synchronizer -/

variable (c : Config)

section
variable {y : SyncSession} (level : Level) (ts : Micros)

theorem wait_forward (h : y.state = .waitSync) : y.state.Forward (y.wait c level).state := by
  unfold SyncSession.wait
  split_ifs
  · exact .stay _
  · rw [h]
    exact .start
  · exact .stay _

@[simp] theorem collect_state : (y.collect c level).1.state = y.state := by
  simp only [SyncSession.collect]
  split_ifs <;> rfl

theorem finish_reset_or_forward (h : y.state = .startSync ∨ y.state = .sync) :
    (y.finish c ts).1 = .reset ∨ y.state.Forward (y.finish c ts).1.state := by
  obtain ⟨-, -, hdone⟩ | ⟨-, hfault⟩ := finish_cases c y ts
  · right
    rw [hdone]
    obtain hstate | hstate := h <;> rw [hstate]
    · exact .finishFirst
    · exact .finish
  · left
    rw [hfault]

theorem runComplete_reset_or_forward (total : Nat) (h : y.state = .startSync ∨ y.state = .sync) :
    (y.runComplete c level ts total).1 = .reset ∨ y.state.Forward (y.runComplete c level ts total).1.state := by
  obtain ⟨-, -, hfirst⟩ | ⟨-, -, hlast⟩ | ⟨-, -, hlater⟩ := runComplete_cases c y level ts total
  · rw [hfirst]
    exact .inr (.stay _)
  · rw [hlast]
    exact finish_reset_or_forward c (y := { y with processed := y.processed + 1 }) ts h
  · right
    rw [hlater]
    obtain hstate | hstate := h <;> rw [hstate]
    · exact .run
    · exact .stay _

theorem collectRun_reset_or_forward (h : y.state = .startSync ∨ y.state = .sync) :
    (y.collectRun c level ts).1 = .reset ∨ y.state.Forward (y.collectRun c level ts).1.state := by
  have hstate : (y.collect c level).1.state = y.state := collect_state c level
  unfold SyncSession.collectRun
  cases hrun : (y.collect c level).2 with
  | more =>
    simp only [hrun, hstate]
    exact .inr (.stay _)
  | fail => simp [hrun]
  | complete total =>
    simp only [hrun]
    rw [← hstate] at h ⊢
    exact runComplete_reset_or_forward c level ts total h

theorem syncSample_reset_or_forward :
    (y.sample c level ts).1 = .reset ∨ y.state.Forward (y.sample c level ts).1.state := by
  unfold SyncSession.sample
  cases hstate : y.state with
  | waitSync =>
    right
    simpa only [hstate] using wait_forward c level hstate
  | startSync => simpa only [hstate] using collectRun_reset_or_forward c level ts (.inl hstate)
  | sync => simpa only [hstate] using collectRun_reset_or_forward c level ts (.inr hstate)
  | done =>
    right
    simpa only [hstate] using .stay .done

end

/-! ## A sample of the receiver -/

variable (r : Receiver) (b : Bool) (level : Level) (ts : Micros)

/-- A synchronizer fault is one of the session's own resets; the lock is reported by RX_SYNCHRONIZED alone. -/
theorem dynamicHunt_session : r.sy.ResetOrForward (r.dynamicHunt c level ts).1.sy (r.dynamicHunt c level ts).2 := by
  unfold Receiver.dynamicHunt
  have hsession := syncSample_reset_or_forward c (y := r.sy) level ts
  cases hresult : (r.sy.sample c level ts).2 with
  | none =>
    simp only [hresult]
    exact hsession.imp_right fun h => ⟨h, quiet_nil⟩
  | fault code => exact .inl (by simp [syncSample_eq_of_fault hresult])
  | done period =>
    simp only [hresult, Receiver.synchronized]
    refine hsession.imp_right fun h => ⟨h, ?_⟩
    simp [Event.isReport]

theorem staticCorrelate_sy : (r.staticCorrelate c level).1.sy = r.sy := by
  simp only [Receiver.staticCorrelate]
  split_ifs <;> rfl

theorem hunt_session : r.sy.ResetOrForward (r.hunt c level ts).1.sy (r.hunt c level ts).2 := by
  unfold Receiver.hunt
  split_ifs
  · exact dynamicHunt_session c r level ts
  · rw [staticCorrelate_sy, staticCorrelate_events]
    exact .kept quiet_nil

theorem waitStartBit_session : r.sy.ResetOrForward (r.waitStartBit c b).1.sy (r.waitStartBit c b).2 := by
  simp only [Receiver.waitStartBit]
  split_ifs
  · exact .kept quiet_nil
  · exact .inl rfl
  · exact .kept quiet_nil

theorem lengthDone_session (x : RxFramer) : r.sy.ResetOrForward (r.lengthDone c x).1.sy (r.lengthDone c x).2 := by
  simp only [Receiver.lengthDone]
  split_ifs
  · exact .inl rfl
  all_goals exact .kept quiet_nil

theorem readLengthBit_session : r.sy.ResetOrForward (r.readLengthBit c b).1.sy (r.readLengthBit c b).2 := by
  simp only [Receiver.readLengthBit]
  split_ifs
  · exact lengthDone_session c r _
  · exact .kept quiet_nil

theorem readPayloadBit_sy : (r.readPayloadBit b).1.sy = r.sy := by
  simp only [Receiver.readPayloadBit]
  split_ifs <;> rfl

/-- The message of a complete frame goes with `enter_sync_hunt()`. -/
theorem readCrcBit_session : r.sy.ResetOrForward (r.readCrcBit c b).1.sy (r.readCrcBit c b).2 := by
  simp only [Receiver.readCrcBit]
  split_ifs
  · exact .inl rfl
  · exact .kept quiet_nil

theorem framerBit_session : r.sy.ResetOrForward (r.framerBit c b).1.sy (r.framerBit c b).2 := by
  unfold Receiver.framerBit
  cases r.rx.state with
  | stopped | syncHunt => exact .kept quiet_nil
  | waitStart => exact waitStartBit_session c r b
  | readLength => exact readLengthBit_session c r b
  | readPayload =>
    simp only [readPayloadBit_sy, readPayloadBit_events]
    exact .kept quiet_nil
  | readCrc => exact readCrcBit_session c r b

theorem frameSample_session : r.sy.ResetOrForward (r.frameSample c level).1.sy (r.frameSample c level).2 := by
  obtain ⟨-, hnone⟩ | ⟨-, hfault⟩ | ⟨b, -, hbit⟩ := frameSample_cases c r level
  · rw [hnone]
    exact .kept quiet_nil
  · rw [hfault]
    exact .inl rfl
  · rw [hbit]
    exact framerBit_session c { r with dm := (r.dm.sample c level).1 } b

theorem receiverSample_session : r.sy.ResetOrForward (r.sample c level ts).1.sy (r.sample c level ts).2 := by
  cases hstate : r.rx.state with
  | stopped =>
    rw [sample_stopped c hstate]
    exact .kept quiet_nil
  | syncHunt =>
    rw [sample_hunt c hstate]
    exact hunt_session c r level ts
  | waitStart | readLength | readPayload | readCrc =>
    have hframe : r.rx.state.inFrame = true := by rw [hstate]; rfl
    rw [sample_frame c hframe]
    exact frameSample_session c r level

/-! ## The other commands of the receiver -/

variable {r} in
theorem start_sy_of_stopped (h : r.rx.state = .stopped) : (r.start c).1.sy = .reset := by
  simp [Receiver.start, h]

variable {r} in
theorem stop_sy_of_not_stopped (h : r.rx.state ≠ .stopped) : r.stop.1.sy = .reset := by
  simp [Receiver.stop, h]

@[simp] theorem selectStrategy_sy (attached : Bool) : (r.selectStrategy attached).sy = .reset := by
  simp only [Receiver.selectStrategy]
  split_ifs <;> rfl

theorem start_session : r.sy.ResetOrForward (r.start c).1.sy (r.start c).2 := by
  by_cases h : r.rx.state = .stopped
  · exact .inl (start_sy_of_stopped c h)
  · rw [Receiver.start, if_neg h]
    exact .kept quiet_nil

theorem stop_session : r.sy.ResetOrForward r.stop.1.sy r.stop.2 := by
  by_cases h : r.rx.state = .stopped
  · rw [Receiver.stop, if_pos h]
    exact .kept quiet_nil
  · exact .inl (stop_sy_of_not_stopped h)

/-! ## The transmitter reports no fault and no message -/

variable (t : TxSession)

theorem quiet_armRecurring : Quiet (t.armRecurring c) := by
  unfold TxSession.armRecurring
  split_ifs <;> simp [Event.isReport]

theorem quiet_exitTransition : Quiet t.exitTransition.2 := by
  unfold TxSession.exitTransition
  cases t.state with
  | length => dsimp only; split_ifs <;> exact quiet_nil
  | crc => simp [Event.isReport]
  | idle | wakeup | syncPreamble | startMarker | payload => exact quiet_nil

theorem quiet_fieldStep : Quiet (t.fieldStep c).2 := by
  simp only [TxSession.fieldStep]
  split_ifs <;> simp [quiet_armRecurring, quiet_exitTransition, Event.isReport]

theorem quiet_tick : Quiet (t.tick c).2 := by
  by_cases hidle : t.state = .idle
  · rw [tick_idle c hidle]
    exact quiet_nil
  · by_cases hwakeup : t.state = .wakeup
    · rw [tick_wakeup c hwakeup]
      simp [TxSession.wakeupStep, Event.isReport]
    · rw [tick_field c hidle hwakeup]
      exact quiet_fieldStep c t

theorem quiet_cancel : Quiet t.cancel.2 := by
  unfold TxSession.cancel
  split_ifs <;> simp [Event.isReport]

/-! ## Every command -/

/-- Everything a step can do to the session, with what it may report. -/
theorem exec_session {i : Instr} {s s' : State} (h : exec i s = .next s') :
    s.rcv.sy.ResetOrForward s'.rcv.sy s'.events := by
  cases i with
  | reset =>
    cases h
    exact .inl rfl
  | txSend payload len crc =>
    by_cases hlen : len.toNat ≤ maxPayload
    · by_cases hidle : s.tx.state = .idle
      · rw [exec_txSend_accepted s hlen hidle] at h
        cases h
        exact .kept (quiet_tick _ _)
      · rw [exec_txSend_busy s hlen hidle] at h
        cases h
        exact .kept quiet_nil
    · rw [exec_txSend_refused s (Nat.not_le.mp hlen)] at h
      cases h
  | txTick =>
    cases h
    exact .kept (quiet_tick _ _)
  | txCancel =>
    cases h
    exact .kept (quiet_cancel _)
  | rxStart =>
    cases h
    exact start_session s.cfg s.rcv
  | rxStop =>
    cases h
    exact stop_session s.rcv
  | rxSample lvl ts =>
    cases h
    exact receiverSample_session s.cfg s.rcv lvl ts
  | rxAttachSync =>
    cases h
    exact .inl (selectStrategy_sy s.rcv true)
  | rxDetachSync =>
    cases h
    exact .inl (selectStrategy_sy s.rcv false)

theorem session_reset_of_fault_mem {i : Instr} {s s' : State} {code : FaultCode} (h : exec i s = .next s')
    (hmem : .fault code ∈ s'.events) : s'.rcv.sy = .reset :=
  (exec_session h).resolve_right fun ⟨_, hquiet⟩ => hquiet.fault_notMem code hmem

theorem session_reset_of_rxMessage_mem {i : Instr} {s s' : State} {payload : BitVec 64} {len : BitVec 7}
    {crc : BitVec 16} (h : exec i s = .next s') (hmem : .rxMessage payload len crc ∈ s'.events) :
    s'.rcv.sy = .reset :=
  (exec_session h).resolve_right fun ⟨_, hquiet⟩ => hquiet.rxMessage_notMem payload len crc hmem

/-- `SYNC_STATE` of the status word is the code of the session's state (30_encoding.md R131). -/
theorem statusWord_syncState (s : State) : s.statusWord.extractLsb' 8 2 = s.rcv.sy.state.code := by
  refine extract_eq fun i hi => ?_
  interval_cases i <;> simp [State.statusWord]

/-- Settles O48: the five commands reset the session themselves, and a step that reports a fault or a message is no
quiet one. -/
theorem syncResetStartsAFreshSession : Obligations.SyncResetStartsAFreshSession := by
  unfold Obligations.SyncResetStartsAFreshSession
  intro i s t hexec hoccasion
  suffices t.rcv.sy = .reset from this
  obtain ⟨rfl, hstate⟩ | ⟨rfl, hstate⟩ | rfl | rfl | rfl | ⟨code, hfault⟩ | ⟨payload, len, crc, hmessage⟩ := hoccasion
  · cases hexec
    exact start_sy_of_stopped s.cfg hstate
  · cases hexec
    exact stop_sy_of_not_stopped hstate
  · cases hexec
    exact selectStrategy_sy s.rcv true
  · cases hexec
    exact selectStrategy_sy s.rcv false
  · cases hexec
    rfl
  · exact session_reset_of_fault_mem hexec hfault
  · exact session_reset_of_rxMessage_mem hexec hmessage

/-- Settles O49: a step that does not reset the session makes one of the forward moves. -/
theorem synchronizerStatesAdvanceInOrder : Obligations.SynchronizerStatesAdvanceInOrder := by
  unfold Obligations.SynchronizerStatesAdvanceInOrder
  refine ⟨fun i s t hexec hchanged => ?_, fun i s t code hexec hfault => ?_, fun s => ?_⟩
  · obtain hreset | ⟨hforward, -⟩ := exec_session hexec
    · simp [hreset]
    · generalize s.rcv.sy.state = x, t.rcv.sy.state = x' at hforward hchanged
      cases hforward with
      | stay => exact absurd rfl hchanged
      | start | run | finishFirst | finish => simp
  · rw [session_reset_of_fault_mem hexec hfault]
    rfl
  · rw [statusWord_syncState]
    cases s.rcv.sy.state <;> rfl

end Sys2Proof.Machine
end

section
/-! No fault is fatal and none is latched (60_exceptions.md R354): whether a command completes is settled by the command
alone, and what it then does by the configuration and the two sides, whatever was emitted before. -/

namespace Sys2Proof.Machine

/-- A command completes in every state, or it is refused in every state and for one reason (R358, R359). -/
theorem exec_completes_or_refused (i : Instr) :
    (∀ s, ∃ s', exec i s = .next s') ∨ ∃ r, ∀ s, exec i s = .refused r := by
  cases i with
  | txSend payload len crc =>
    by_cases hlen : len.toNat ≤ maxPayload
    · refine .inl fun s => ?_
      by_cases hidle : s.tx.state = .idle
      · exact ⟨_, exec_txSend_accepted s hlen hidle payload crc⟩
      · exact ⟨_, exec_txSend_busy s hlen hidle payload crc⟩
    · exact .inr ⟨_, fun s => exec_txSend_refused s (Nat.not_le.mp hlen) payload crc⟩
  | reset => exact .inl fun s => ⟨_, exec_reset s⟩
  | txTick => exact .inl fun s => ⟨_, exec_txTick s⟩
  | txCancel => exact .inl fun s => ⟨_, exec_txCancel s⟩
  | rxStart => exact .inl fun s => ⟨_, exec_rxStart s⟩
  | rxStop => exact .inl fun s => ⟨_, exec_rxStop s⟩
  | rxSample lvl ts => exact .inl fun s => ⟨_, exec_rxSample s lvl ts⟩
  | rxAttachSync => exact .inl fun s => ⟨_, exec_rxAttachSync s⟩
  | rxDetachSync => exact .inl fun s => ⟨_, exec_rxDetachSync s⟩

variable {i : Instr} {s s' u u' : State}

theorem exec_ne_fault (f : Fault) : exec i s ≠ .fault f := by
  obtain hnext | ⟨r, hrefused⟩ := exec_completes_or_refused i
  · obtain ⟨t, ht⟩ := hnext s
    simp [ht]
  · simp [hrefused]

theorem exec_completes_of_completes (hs : exec i s = .next s') (u : State) : ∃ u', exec i u = .next u' :=
  (exec_completes_or_refused i).resolve_right (fun ⟨r, hrefused⟩ => by simp [hrefused] at hs) u

theorem exec_refused_of_refused {r : Refusal} (hs : exec i s = .refused r) (u : State) : exec i u = .refused r := by
  obtain hnext | ⟨r', hrefused⟩ := exec_completes_or_refused i
  · obtain ⟨t, ht⟩ := hnext s
    simp [ht] at hs
  · rw [hrefused, ← hs, hrefused]

/-- Two steps of one command from states that agree on the block: a command of either side keeps the agreement on the
other side too, because it leaves that side as it was, and RESET reads neither. -/
theorem exec_agree_of_block_eq (hs : exec i s = .next s') (hu : exec i u = .next u') (hcfg : s.cfg = u.cfg)
    (htx : s.tx = u.tx) (hrcv : s.rcv = u.rcv) :
    u'.tx = s'.tx ∧ u'.rcv = s'.rcv ∧ u'.events = s'.events ∧ u'.resp = s'.resp := by
  cases i with
  | reset =>
    rw [exec_reset] at hs hu
    cases hs
    cases hu
    simp
  | txSend | txTick | txCancel =>
    obtain ⟨htx', hevents, hresp, hs_rcv, hu_rcv⟩ := (actsWithin_tx_of_isTx rfl).two_runs hs hu hcfg htx
    exact ⟨htx'.symm, by rw [hu_rcv, hs_rcv, hrcv], hevents.symm, hresp.symm⟩
  | rxStart | rxStop | rxSample | rxAttachSync | rxDetachSync =>
    obtain ⟨hrcv', hevents, hresp, hs_tx, hu_tx⟩ := (actsWithin_rcv_of_isRx rfl).two_runs hs hu hcfg hrcv
    exact ⟨by rw [hu_tx, hs_tx, htx], hrcv'.symm, hevents.symm, hresp.symm⟩

/-- Settles O56: whether a command completes does not depend on the state, so the second run completes or is refused
as the first does, and two completed runs agree on the block. -/
theorem noFaultIsFatalOrLatched : Obligations.NoFaultIsFatalOrLatched := by
  unfold Obligations.NoFaultIsFatalOrLatched
  refine ⟨fun i s f => exec_ne_fault f, fun i s u hcfg htx hrcv => ⟨fun s' hs => ?_, fun r hs => ?_⟩⟩
  · obtain ⟨u', hu⟩ := exec_completes_of_completes hs u
    exact ⟨u', hu, exec_agree_of_block_eq hs hu hcfg htx hrcv⟩
  · exact exec_refused_of_refused hs u

end Sys2Proof.Machine
end

section
/-! The command words and their rows of the opcode map (30_encoding.md R101 to R106): the bits each format reserves, a
word put together again from its fields, and the decoder as the inverse of the encoder. -/

namespace Sys2Proof

/-! ## The bits a format reserves (R101) -/

/-- A word and a mask have no bit in common exactly when the word is 0 at every bit of the mask. -/
theorem and_eq_zero_iff {w : Nat} {c m : BitVec w} :
    c &&& m = 0#w ↔ ∀ k, m.getLsbD k = true → c.getLsbD k = false := by
  refine ⟨fun h k hk => ?_, fun h => BitVec.eq_of_getLsbD_eq fun k _ => ?_⟩
  · have hbit : (c &&& m).getLsbD k = false := by simp [h]
    simpa [hk] using hbit
  · cases hk : m.getLsbD k with
    | true => simp [h k hk]
    | false => simp [hk]

theorem getLsbD_reservedF0 (k : Nat) : reservedF0.getLsbD k = decide (4 ≤ k ∧ k < 128) := by
  by_cases hk : k < 128
  · have hall : ∀ k < 128, reservedF0.getLsbD k = decide (4 ≤ k ∧ k < 128) := by decide
    exact hall k hk
  · rw [BitVec.getLsbD_of_ge _ _ (Nat.not_lt.mp hk)]
    simp [hk]

theorem getLsbD_reservedFS (k : Nat) :
    reservedFS.getLsbD k = decide ((4 ≤ k ∧ k ≤ 15) ∨ (23 ≤ k ∧ k ≤ 31) ∨ (48 ≤ k ∧ k ≤ 63)) := by
  by_cases hk : k < 128
  · have hall : ∀ k < 128, reservedFS.getLsbD k =
        decide ((4 ≤ k ∧ k ≤ 15) ∨ (23 ≤ k ∧ k ≤ 31) ∨ (48 ≤ k ∧ k ≤ 63)) := by decide
    exact hall k hk
  · rw [BitVec.getLsbD_of_ge _ _ (Nat.not_lt.mp hk), eq_comm, decide_eq_false_iff_not]
    omega

theorem getLsbD_reservedFR (k : Nat) :
    reservedFR.getLsbD k = decide ((4 ≤ k ∧ k ≤ 7) ∨ (9 ≤ k ∧ k ≤ 31) ∨ (64 ≤ k ∧ k ≤ 127)) := by
  by_cases hk : k < 128
  · have hall : ∀ k < 128, reservedFR.getLsbD k =
        decide ((4 ≤ k ∧ k ≤ 7) ∨ (9 ≤ k ∧ k ≤ 31) ∨ (64 ≤ k ∧ k ≤ 127)) := by decide
    exact hall k hk
  · rw [BitVec.getLsbD_of_ge _ _ (Nat.not_lt.mp hk), eq_comm, decide_eq_false_iff_not]
    omega

variable {c : CommandWord}

theorem reservedF0_clear_iff : c &&& reservedF0 = 0#128 ↔ ∀ k, 4 ≤ k → k < 128 → c.getLsbD k = false := by
  simp [and_eq_zero_iff, getLsbD_reservedF0]

theorem reservedFS_clear_iff : c &&& reservedFS = 0#128 ↔
    ∀ k, ((4 ≤ k ∧ k ≤ 15) ∨ (23 ≤ k ∧ k ≤ 31) ∨ (48 ≤ k ∧ k ≤ 63)) → c.getLsbD k = false := by
  simp only [and_eq_zero_iff, getLsbD_reservedFS, decide_eq_true_eq]

theorem reservedFR_clear_iff : c &&& reservedFR = 0#128 ↔
    ∀ k, ((4 ≤ k ∧ k ≤ 7) ∨ (9 ≤ k ∧ k ≤ 31) ∨ (64 ≤ k ∧ k ≤ 127)) → c.getLsbD k = false := by
  simp only [and_eq_zero_iff, getLsbD_reservedFR, decide_eq_true_eq]

theorem withReserved_of_clear {reserved : CommandWord} {r : Except DecodeError Instr} (h : c &&& reserved = 0#128) :
    withReserved reserved c r = r := if_pos h

theorem withReserved_of_not_clear {reserved : CommandWord} {r : Except DecodeError Instr}
    (h : c &&& reserved ≠ 0#128) : withReserved reserved c r = .error (.reservedBits c) := if_neg h

theorem sendLengthOk_iff {len : BitVec 7} : sendLengthOk len = true ↔ len.toNat ≤ 64 := decide_eq_true_iff

/-! ## A word is its fields and its reserved bits -/

/-- A field of a word, placed again, is the word's own bits there. -/
theorem getLsbD_placeAt_extract (c : CommandWord) (lo n i : Nat) :
    (placeAt 128 (c.extractLsb' lo n) lo).getLsbD i = (decide (i < 128 ∧ lo ≤ i ∧ i < lo + n) && c.getLsbD i) := by
  rw [getLsbD_placeAt, BitVec.getLsbD_extractLsb']
  by_cases hlo : lo ≤ i
  · have hwidth : i - lo < n ↔ i < lo + n := by omega
    simp [hlo, hwidth, Bool.and_assoc]
  · simp [hlo]

theorem ofBool_lvl (c : CommandWord) : BitVec.ofBool c.lvl = c.extractLsb' 8 1 := by
  refine (extract_eq fun i hi => ?_).symm
  interval_cases i
  simp [CommandWord.lvl]

theorem eq_wordF0 (h : c &&& reservedF0 = 0#128) : c = wordF0 c.opc := by
  rw [reservedF0_clear_iff] at h
  apply BitVec.eq_of_getLsbD_eq
  intro i hi
  rw [wordF0, CommandWord.opc, getLsbD_placeAt_extract]
  by_cases hfield : i < 4
  · simp [hfield, hi]
  · simp [hfield, h i (by omega) hi]

theorem eq_wordFS (h : c &&& reservedFS = 0#128) : c = wordFS c.opc c.payload c.len c.crc := by
  rw [reservedFS_clear_iff] at h
  apply BitVec.eq_of_getLsbD_eq
  intro i hi
  simp only [wordFS, CommandWord.opc, CommandWord.payload, CommandWord.len, CommandWord.crc, BitVec.getLsbD_or,
    getLsbD_placeAt_extract]
  by_cases hreserved : (4 ≤ i ∧ i ≤ 15) ∨ (23 ≤ i ∧ i ≤ 31) ∨ (48 ≤ i ∧ i ≤ 63)
  · simp [h i hreserved]
  · cases c.getLsbD i with
    | false => simp
    | true => simp [hi]; omega

theorem eq_wordFR (h : c &&& reservedFR = 0#128) : c = wordFR c.opc c.lvl c.ts := by
  rw [reservedFR_clear_iff] at h
  apply BitVec.eq_of_getLsbD_eq
  intro i hi
  simp only [wordFR, ofBool_lvl, CommandWord.opc, CommandWord.ts, BitVec.getLsbD_or, getLsbD_placeAt_extract]
  by_cases hreserved : (4 ≤ i ∧ i ≤ 7) ∨ (9 ≤ i ∧ i ≤ 31) ∨ (64 ≤ i ∧ i ≤ 127)
  · simp [h i hreserved]
  · cases c.getLsbD i with
    | false => simp
    | true => simp [hi]; omega

theorem reserved_wordF0 (opc : BitVec 4) : wordF0 opc &&& reservedF0 = 0#128 := by
  have hfield : reservedF0.extractLsb' 0 4 = 0#4 := by decide
  simp [wordF0, placeAt_and, hfield]

/-! ## The decoder, by the opcode (R104) -/

/-- The command of each opcode of format F0. -/
def commandF0 : Nat → Option Instr
  | 1 => some .reset
  | 3 => some .txTick
  | 4 => some .txCancel
  | 5 => some .rxStart
  | 6 => some .rxStop
  | 8 => some .rxAttachSync
  | 9 => some .rxDetachSync
  | _ => none

theorem decode_F0 {i : Instr} (h : commandF0 c.opc.toNat = some i) : decode c = withReserved reservedF0 c (.ok i) := by
  unfold commandF0 at h
  unfold decode
  split at h <;> simp_all

theorem decode_FS (h : c.opc = 2#4) : decode c = withReserved reservedFS c
    (if sendLengthOk c.len then .ok (.txSend c.payload c.len c.crc) else .error (.sendLengthOver64 c.len)) := by
  simp [decode, h]

theorem decode_FR (h : c.opc = 7#4) : decode c = withReserved reservedFR c (.ok (.rxSample c.lvl c.ts)) := by
  simp [decode, h]

theorem decode_undefined (h : c.opc = 0#4 ∨ 10 ≤ c.opc.toNat) : decode c = .error (.undefinedOpcode c.opc) := by
  unfold decode
  split <;> simp_all

/-- Every opcode belongs to a format or is undefined. -/
theorem opcode_cases (c : CommandWord) :
    (∃ i, commandF0 c.opc.toNat = some i) ∨ c.opc = 2#4 ∨ c.opc = 7#4 ∨ c.opc = 0#4 ∨ 10 ≤ c.opc.toNat := by
  have hall : ∀ o : BitVec 4, (commandF0 o.toNat).isSome = true ∨ o = 2#4 ∨ o = 7#4 ∨ o = 0#4 ∨ 10 ≤ o.toNat := by
    decide
  simpa [Option.isSome_iff_exists] using hall c.opc

/-- The word of a command of format F0 is its opcode. -/
theorem encode_F0 {o : BitVec 4} {i : Instr} (h : commandF0 o.toNat = some i) :
    encode i = wordF0 o ∧ i.wellFormed = true := by
  have hall : ∀ o : BitVec 4, ∀ i ∈ commandF0 o.toNat, encode i = wordF0 o ∧ i.wellFormed = true := by decide
  exact hall o i h

theorem decode_encode_F0 {o : BitVec 4} {i : Instr} (h : commandF0 o.toNat = some i) : decode (encode i) = .ok i := by
  rw [(encode_F0 h).1, decode_F0 (i := i) (by rwa [opc_wordF0]), withReserved_of_clear (reserved_wordF0 o)]

/-! ## Decoder and encoder -/

theorem decode_encode {i : Instr} (h : i.wellFormed = true) : decode (encode i) = .ok i := by
  cases i with
  | txSend payload len crc =>
    have hlen : sendLengthOk len = true := h
    rw [encode, decode_FS (opc_wordFS ..), withReserved_of_clear (reserved_wordFS ..), len_wordFS, payload_wordFS,
      crc_wordFS, if_pos hlen]
  | rxSample lvl ts =>
    rw [encode, decode_FR (opc_wordFR ..), withReserved_of_clear (reserved_wordFR ..), lvl_wordFR, ts_wordFR]
  | reset => exact decode_encode_F0 (o := 1#4) rfl
  | txTick => exact decode_encode_F0 (o := 3#4) rfl
  | txCancel => exact decode_encode_F0 (o := 4#4) rfl
  | rxStart => exact decode_encode_F0 (o := 5#4) rfl
  | rxStop => exact decode_encode_F0 (o := 6#4) rfl
  | rxAttachSync => exact decode_encode_F0 (o := 8#4) rfl
  | rxDetachSync => exact decode_encode_F0 (o := 9#4) rfl

/-- Settles O2, by the format of the command: each field is read back from its place and the reserved bits are 0. -/
theorem decodeInvertsEncode : Obligations.DecodeInvertsEncode := by
  unfold Obligations.DecodeInvertsEncode
  exact fun _ => decode_encode

theorem encode_of_decode {i : Instr} (h : decode c = .ok i) : encode i = c ∧ i.wellFormed = true := by
  obtain ⟨j, hj⟩ | hFS | hFR | hundefined := opcode_cases c
  · rw [decode_F0 hj, withReserved_ok] at h
    obtain ⟨hclear, hok⟩ := h
    cases hok
    obtain ⟨hword, hwf⟩ := encode_F0 hj
    exact ⟨hword.trans (eq_wordF0 hclear).symm, hwf⟩
  · rw [decode_FS hFS, withReserved_ok] at h
    obtain ⟨hclear, hok⟩ := h
    split_ifs at hok with hlen
    cases hok
    exact ⟨by rw [encode, ← hFS, ← eq_wordFS hclear], hlen⟩
  · rw [decode_FR hFR, withReserved_ok] at h
    obtain ⟨hclear, hok⟩ := h
    cases hok
    exact ⟨by rw [encode, ← hFR, ← eq_wordFR hclear], rfl⟩
  · rw [decode_undefined hundefined] at h
    cases h

/-- Settles O3, by the format of the opcode: an accepted word is its fields, all other bits 0. -/
theorem encodeInvertsDecode : Obligations.EncodeInvertsDecode := by
  unfold Obligations.EncodeInvertsDecode
  exact fun _ _ => encode_of_decode

/-- A word known to be a command's own. -/
theorem decode_of_encode_eq {i : Instr} (hwf : i.wellFormed = true) (h : encode i = c) : decode c = .ok i :=
  h ▸ decode_encode hwf

/-! ## The rows of the opcode map (R104) -/

theorem encode_inRow (i : Instr) : inRowOf (encode i) i = true := by
  cases i with
  | reset => exact Laws.EncodeInRow.reset
  | txSend payload len crc => exact Laws.EncodeInRow.txSend payload len crc
  | txTick => exact Laws.EncodeInRow.txTick
  | txCancel => exact Laws.EncodeInRow.txCancel
  | rxStart => exact Laws.EncodeInRow.rxStart
  | rxStop => exact Laws.EncodeInRow.rxStop
  | rxSample lvl ts => exact Laws.EncodeInRow.rxSample lvl ts
  | rxAttachSync => exact Laws.EncodeInRow.rxAttachSync
  | rxDetachSync => exact Laws.EncodeInRow.rxDetachSync

/-- A row whose mask takes every bit holds one word. -/
theorem eq_matchOf_of_inRow {j : Instr} (hmask : maskOf j = BitVec.allOnes 128) (h : inRowOf c j = true) :
    c = matchOf j := by
  rwa [inRowOf, beq_iff_eq, hmask, BitVec.and_allOnes] at h

/-- A row whose mask takes the bits `m`: a word in it agrees with the row's match there. -/
theorem and_eq_of_inRow {j : Instr} {m : CommandWord} (hmask : maskOf j &&& m = m) (h : inRowOf c j = true) :
    c &&& m = matchOf j &&& m := by
  rw [inRowOf, beq_iff_eq] at h
  rw [← h, BitVec.and_assoc, hmask]

/-- A row whose mask takes the opcode: a word in it has the opcode of the row's match. -/
theorem opc_of_inRow {j : Instr} (hmask : maskOf j &&& 15#128 = 15#128) (h : inRowOf c j = true) :
    c.opc = (matchOf j).opc := by
  have hlow : ∀ d : CommandWord, (d &&& 15#128).extractLsb' 0 4 = d.opc := by
    intro d
    refine extract_eq fun i hi => ?_
    interval_cases i <;> simp [CommandWord.opc]
  rw [← hlow c, and_eq_of_inRow hmask h, hlow]

theorem inRow_txSend {payload : BitVec 64} {len : BitVec 7} {crc : BitVec 16}
    (h : inRowOf c (.txSend payload len crc) = true) : c.opc = 2#4 ∧ c &&& reservedFS = 0#128 :=
  ⟨opc_of_inRow (by simp only [maskOf]; decide) h,
    (and_eq_of_inRow (by simp only [maskOf]; decide) h).trans (by simp only [matchOf]; decide)⟩

theorem inRow_rxSample {lvl : Level} {ts : Micros} (h : inRowOf c (.rxSample lvl ts) = true) :
    c.opc = 7#4 ∧ c &&& reservedFR = 0#128 :=
  ⟨opc_of_inRow (by simp only [maskOf]; decide) h,
    (and_eq_of_inRow (by simp only [maskOf]; decide) h).trans (by simp only [matchOf]; decide)⟩

/-- A word in the row of a command of format F0 decodes to that command. -/
theorem decode_of_inRow_F0 {j : Instr} (hmask : maskOf j = BitVec.allOnes 128) (hword : encode j = matchOf j)
    (hwf : j.wellFormed = true) (h : inRowOf c j = true) : decode c = .ok j :=
  decode_of_encode_eq hwf (hword.trans (eq_matchOf_of_inRow hmask h).symm)

/-- What a word in the row of `j` decodes to. -/
theorem decode_of_inRow {j : Instr} (h : inRowOf c j = true) :
    (∃ i, decode c = .ok i ∧ maskOf i = maskOf j ∧ matchOf i = matchOf j) ∨
      (matchOf j = 2#128 ∧ 64 < c.len.toNat ∧ decode c = .error (.sendLengthOver64 c.len)) := by
  cases j with
  | txSend payload len crc =>
    obtain ⟨hopc, hclear⟩ := inRow_txSend h
    rw [decode_FS hopc, withReserved_of_clear hclear]
    by_cases hlen : sendLengthOk c.len = true
    · exact .inl ⟨_, if_pos hlen, rfl, rfl⟩
    · exact .inr ⟨rfl, Nat.not_le.mp (mt sendLengthOk_iff.mpr hlen), if_neg hlen⟩
  | rxSample lvl ts =>
    obtain ⟨hopc, hclear⟩ := inRow_rxSample h
    exact .inl ⟨_, (decode_FR hopc).trans (withReserved_of_clear hclear), rfl, rfl⟩
  | reset | txTick | txCancel | rxStart | rxStop | rxAttachSync | rxDetachSync =>
    exact .inl ⟨_, decode_of_inRow_F0 (by decide) (by decide) rfl h, rfl, rfl⟩

/-- Settles O4: an accepted word is its command's own word, which lies in that command's row; and a row fixes the opcode
and clears the reserved bits, which is all the decoder asks but for the length of a TX_SEND. -/
theorem decodesExactlyTheRowsOfTheOpcodeMap : Obligations.DecodesExactlyTheRowsOfTheOpcodeMap := by
  unfold Obligations.DecodesExactlyTheRowsOfTheOpcodeMap
  refine fun c => ⟨fun i h => ?_, fun j => decode_of_inRow⟩
  rw [← (encode_of_decode h).1]
  exact encode_inRow i

/-! ## Words written out from the spec (95_test_vectors.md V40 to V53) -/

/-- Settles O1: ten of the words are their commands' own, and the other two have an undefined opcode and a length of 65. -/
theorem decodesWordsWrittenFromTheSpec : Obligations.DecodesWordsWrittenFromTheSpec := by
  unfold Obligations.DecodesWordsWrittenFromTheSpec
  refine ⟨?_, ?_, ?_, ?_, ?_, ?_, ?_, ?_, ?_, ?_, decode_undefined (by decide), ?_⟩
  iterate 10 exact decode_of_encode_eq (by decide) (by decide)
  have hclear : 0x00000000_00000000_00000000_00410002#128 &&& reservedFS = 0#128 := by decide
  rw [decode_FS (by decide), withReserved_of_clear hclear]
  rfl

end Sys2Proof

namespace Sys2Proof.Machine

/-! ## A step by the next word -/

variable {s : State} {c : CommandWord} {rest : List CommandWord}

theorem step_of_decode_ok {i : Instr} (hinbox : s.inbox = c :: rest) (h : decode c = .ok i) :
    step s = exec i { s with inbox := rest } := by
  simp [step, State.takeCommand, hinbox, h]

theorem step_of_decode_error {why : DecodeError} (hinbox : s.inbox = c :: rest) (h : decode c = .error why) :
    step s = .refused (.spellsNoCommand why) := by
  simp [step, State.takeCommand, hinbox, h, refuseWord]

theorem step_of_empty (h : s.inbox = []) : step s = .next s := by
  simp [step, State.takeCommand, h]

/-- Everything a step that answers a next state can be. -/
theorem step_cases {t : State} (h : step s = .next t) :
    (s.inbox = [] ∧ t = s) ∨ ∃ c rest i, s.inbox = c :: rest ∧ exec i { s with inbox := rest } = .next t := by
  cases hinbox : s.inbox with
  | nil =>
    rw [step_of_empty hinbox] at h
    cases h
    exact .inl ⟨rfl, rfl⟩
  | cons c rest =>
    cases hdecode : decode c with
    | error why =>
      rw [step_of_decode_error hinbox hdecode] at h
      cases h
    | ok i =>
      rw [step_of_decode_ok hinbox hdecode] at h
      exact .inr ⟨c, rest, i, rfl, h⟩

/-- Settles O11. -/
theorem stepRunsTheDecodedCommand : Obligations.StepRunsTheDecodedCommand := by
  unfold Obligations.StepRunsTheDecodedCommand
  exact ⟨fun _ _ _ _ => step_of_decode_ok, fun _ => step_of_empty⟩

/-- Settles O5: each clause gives the decoder's ground, by the opcode's format and a bit of its reserved mask. -/
theorem refusesWordsThatSpellNoCommand : Obligations.RefusesWordsThatSpellNoCommand := by
  unfold Obligations.RefusesWordsThatSpellNoCommand
  intro s c rest hinbox
  refine ⟨fun hopc => ?_, fun hopc hbit => ?_, fun hopc hbit => ?_, fun hopc hbit => ?_, fun hopc hclear hlen => ?_⟩
    <;> apply step_of_decode_error hinbox
  · exact decode_undefined hopc
  · obtain ⟨k, hlo, hhi, hk⟩ := hbit
    have hset : c &&& reservedF0 ≠ 0#128 := fun h => by simp [reservedF0_clear_iff.mp h k hlo hhi] at hk
    obtain ⟨i, hi⟩ : ∃ i, commandF0 c.opc.toNat = some i := by
      rcases hopc with h | h | h | h | h | h | h <;> simp [h, commandF0]
    rw [decode_F0 hi, withReserved_of_not_clear hset]
  · obtain ⟨k, hrange, hk⟩ := hbit
    have hset : c &&& reservedFS ≠ 0#128 := fun h => by simp [reservedFS_clear_iff.mp h k hrange] at hk
    rw [decode_FS hopc, withReserved_of_not_clear hset]
  · obtain ⟨k, hrange, hk⟩ := hbit
    have hset : c &&& reservedFR ≠ 0#128 := fun h => by simp [reservedFR_clear_iff.mp h k hrange] at hk
    rw [decode_FR hopc, withReserved_of_not_clear hset]
  · rw [decode_FS hopc, withReserved_of_clear (reservedFS_clear_iff.mpr hclear),
      if_neg (mt sendLengthOk_iff.mp (Nat.not_le.mpr hlen))]

end Sys2Proof.Machine
end

section
/-! A single step of the transmitter (40_transmit_framer.md R151 to R169): the whole next state of TX_SEND, TX_TICK and
TX_CANCEL, by the state the session is in. -/

namespace Sys2Proof.Machine

/-! ## The sub-step, state by state -/

section
variable (c : Config) {t : TxSession}

theorem tick_secondWakeup (hstate : t.state = .wakeup) (hstep : t.stepIndex = 1) :
    t.tick c = ({ t with state := .syncPreamble, stepIndex := 36, line := false },
      [.setSignal false, .txSetOneShot wakeupHalfUs]) := by
  rw [tick_wakeup c hstate]
  simp [TxSession.wakeupStep, hstep, TxSession.enter, TxSession.drive, preambleLen]

theorem tick_openSession (t : TxSession) (payload : BitVec 64) (len : BitVec 7) (crc : BitVec 16) :
    (t.openSession payload len crc).tick c =
      ({ state := .wakeup, stepIndex := 1, payload := payload, length := len, crc := crc, line := true },
        [.setSignal true, .txSetOneShot wakeupHalfUs]) := by
  rw [tick_wakeup c rfl]
  simp [TxSession.wakeupStep, TxSession.openSession, TxSession.drive]

theorem tick_within {k : Nat} (hidle : t.state ≠ .idle) (hwakeup : t.state ≠ .wakeup) (hstep : t.stepIndex = k + 2) :
    t.tick c = ({ t with stepIndex := k + 1, line := t.fieldBit (k + 1) },
      .setSignal (t.fieldBit (k + 1)) :: t.armRecurring c) := by
  rw [tick_field c hidle hwakeup, fieldStep_within c hstep]

/-- The last bit of a field. The recurring request belongs to the first bit of the preamble, which is not its last. -/
theorem tick_last (hidle : t.state ≠ .idle) (hwakeup : t.state ≠ .wakeup) (hstep : t.stepIndex = 1) :
    t.tick c =
      (({ t with stepIndex := 0, line := t.fieldBit 0 } : TxSession).exitTransition.1,
        .setSignal (t.fieldBit 0) ::
          ({ t with stepIndex := 0, line := t.fieldBit 0 } : TxSession).exitTransition.2) := by
  have harm : t.armRecurring c = [] := armRecurring_nil c (by simp [hstep, preambleLen])
  rw [tick_field c hidle hwakeup, fieldStep_last c hstep, harm, List.nil_append]

theorem armRecurring_first (hstate : t.state = .syncPreamble) (hstep : t.stepIndex = preambleLen) :
    t.armRecurring c = [.txSetRecurring (nominalBitUs c)] := if_pos ⟨hstate, hstep⟩

end

section
variable {t : TxSession}

theorem fieldBit_syncPreamble (h : t.state = .syncPreamble) (i : Nat) : t.fieldBit i = preambleValue.getLsbD i := by
  simp [TxSession.fieldBit, h]

theorem fieldBit_startMarker (h : t.state = .startMarker) (i : Nat) : t.fieldBit i = markerValue.getLsbD i := by
  simp [TxSession.fieldBit, h]

theorem fieldBit_length (h : t.state = .length) (i : Nat) : t.fieldBit i = t.length.getLsbD i := by
  simp [TxSession.fieldBit, h]

theorem fieldBit_payload (h : t.state = .payload) (i : Nat) : t.fieldBit i = t.payload.getLsbD i := by
  simp [TxSession.fieldBit, h]

theorem fieldBit_crc (h : t.state = .crc) (i : Nat) : t.fieldBit i = t.crc.getLsbD i := by
  simp [TxSession.fieldBit, h]

/-- The preamble alternates, its odd bits 1 (30_encoding.md R141). -/
theorem getLsbD_preambleValue {i : Nat} (h : i < 36) : preambleValue.getLsbD i = decide (i % 2 = 1) := by
  have hall : ∀ i < 36, preambleValue.getLsbD i = decide (i % 2 = 1) := by decide
  exact hall i h

theorem exitTransition_syncPreamble (h : t.state = .syncPreamble) :
    t.exitTransition = (t.enter .startMarker 12, []) := by simp [TxSession.exitTransition, h, markerLen]

theorem exitTransition_startMarker (h : t.state = .startMarker) :
    t.exitTransition = (t.enter .length 7, []) := by simp [TxSession.exitTransition, h, lengthBits]

theorem exitTransition_length (h : t.state = .length) (hlen : t.length ≠ 0#7) :
    t.exitTransition = (t.enter .payload t.length.toNat, []) := by simp [TxSession.exitTransition, h, hlen]

theorem exitTransition_length_zero (h : t.state = .length) (hlen : t.length = 0#7) :
    t.exitTransition = (t.enter .crc 16, []) := by simp [TxSession.exitTransition, h, hlen, crcBits]

theorem exitTransition_payload (h : t.state = .payload) :
    t.exitTransition = (t.enter .crc 16, []) := by simp [TxSession.exitTransition, h, crcBits]

theorem exitTransition_crc (h : t.state = .crc) :
    t.exitTransition = (t.enter .idle 0, [.txCancelTrigger, .txComplete]) := by simp [TxSession.exitTransition, h]

theorem cancel_busy (h : t.state ≠ .idle) : t.cancel = (t.enter .idle 0, [.txCancelTrigger]) := by
  simp [TxSession.cancel, TxSession.busy, h]

theorem cancel_idle (h : t.state = .idle) : t.cancel = (t, []) := by
  simp [TxSession.cancel, TxSession.busy, h]

end

/-! ## The whole next state -/

variable {s : State} {t' : TxSession} {es : List Event}

theorem completeTx_eq_after (s : State) (p : TxSession × List Event) :
    s.completeTx p = s.after p.1 s.rcv (s.agents.observeAll p.2) .ok p.2 := rfl

/-- TX_TICK through the sub-step: the trigger fires, then the collaborators observe the events. -/
theorem exec_txTick_of_tick (h : s.tx.tick s.cfg = (t', es)) :
    exec .txTick s = .next (s.after t' s.rcv
      (({ s.agents with txTrigger := s.agents.txTrigger.fire } : Agents).observeAll es) .ok es) := by
  rw [exec_txTick, h]
  rfl

/-- Settles O13. -/
theorem txSendStartsTheWakeup : Obligations.TxSendStartsTheWakeup := by
  unfold Obligations.TxSendStartsTheWakeup
  intro s payload len crc hidle hlen
  rw [exec_txSend_accepted s hlen hidle, tick_openSession, completeTx_eq_after]
  rfl

/-- Settles O14. -/
theorem txSendBusyOrOver64ChangesNothing : Obligations.TxSendBusyOrOver64ChangesNothing := by
  unfold Obligations.TxSendBusyOrOver64ChangesNothing
  intro s payload len crc
  exact ⟨fun hbusy hlen => exec_txSend_busy s hlen hbusy payload crc,
    fun hlen => exec_txSend_refused s hlen payload crc⟩

/-- Settles O16. -/
theorem txTickDrivesTheSecondWakeupHalf : Obligations.TxTickDrivesTheSecondWakeupHalf := by
  unfold Obligations.TxTickDrivesTheSecondWakeupHalf
  exact fun s hstate hstep => exec_txTick_of_tick (tick_secondWakeup s.cfg hstate hstep)

/-- Settles O17: the bit driven is the field's at the decremented index, and the step counter is 36 in no other field. -/
theorem txTickDrivesTheFieldBit : Obligations.TxTickDrivesTheFieldBit := by
  unfold Obligations.TxTickDrivesTheFieldBit
  intro s k hidle hwakeup hstep hk hwidth
  obtain ⟨j, rfl⟩ : ∃ j, k = j + 1 := ⟨k - 1, by omega⟩
  have htick := tick_within s.cfg hidle hwakeup hstep
  refine ⟨s.tx.fieldBit (j + 1), fun hstate => ?_, fun hstate => fieldBit_startMarker hstate _,
    fun hstate => fieldBit_length hstate _, fun hstate => fieldBit_payload hstate _,
    fun hstate => fieldBit_crc hstate _, fun hstate hfirst => ?_, fun hother => ?_⟩
  · have hlt : j + 1 < 36 := by simpa [hstep, TxSession.fieldWidth, hstate, preambleLen] using hwidth
    rw [fieldBit_syncPreamble hstate, getLsbD_preambleValue hlt]
  · have hfull : s.tx.stepIndex = preambleLen := by rw [hstep, hfirst]; rfl
    rw [armRecurring_first s.cfg hstate hfull] at htick
    exact exec_txTick_of_tick htick
  · have hnotFirst : ¬(s.tx.state = .syncPreamble ∧ s.tx.stepIndex = preambleLen) := by
      rintro ⟨hstate, hfull⟩
      exact hother ⟨hstate, by simpa [hstep, preambleLen] using hfull⟩
    rw [armRecurring_nil s.cfg hnotFirst] at htick
    exact exec_txTick_of_tick htick

/-- TX_TICK on the last bit of a field, through the exit transition. -/
theorem exec_txTick_of_exit {t : TxSession} (hidle : s.tx.state ≠ .idle) (hwakeup : s.tx.state ≠ .wakeup)
    (hstep : s.tx.stepIndex = 1) {b : Bool} (hbit : s.tx.fieldBit 0 = b)
    (hexit : ({ s.tx with stepIndex := 0, line := b } : TxSession).exitTransition = (t, es)) :
    exec .txTick s = .next (s.after t s.rcv
      (({ s.agents with txTrigger := s.agents.txTrigger.fire, line := some b } : Agents).observeAll es) .ok
      (.setSignal b :: es)) := by
  have htick := tick_last s.cfg hidle hwakeup hstep
  rw [hbit, hexit] at htick
  exact exec_txTick_of_tick htick

/-- Settles O18. -/
theorem txFieldExitsLoadTheNextWidth : Obligations.TxFieldExitsLoadTheNextWidth := by
  unfold Obligations.TxFieldExitsLoadTheNextWidth
  intro s hstep
  refine ⟨fun hstate => ?_, fun hstate => ?_, fun hstate => ?_⟩
  · exact exec_txTick_of_exit (by simp [hstate]) (by simp [hstate]) hstep
      (fieldBit_syncPreamble hstate 0) (exitTransition_syncPreamble hstate)
  · exact exec_txTick_of_exit (by simp [hstate]) (by simp [hstate]) hstep
      (fieldBit_startMarker hstate 0) (exitTransition_startMarker hstate)
  · exact exec_txTick_of_exit (by simp [hstate]) (by simp [hstate]) hstep
      (fieldBit_payload hstate 0) (exitTransition_payload hstate)

/-- Settles O19. -/
theorem txLengthExitPassesAnEmptyPayload : Obligations.TxLengthExitPassesAnEmptyPayload := by
  unfold Obligations.TxLengthExitPassesAnEmptyPayload
  intro s hstep hstate
  refine ⟨fun hlen => ?_, fun hlen => ?_⟩
  · exact exec_txTick_of_exit (by simp [hstate]) (by simp [hstate]) hstep
      (fieldBit_length hstate 0) (exitTransition_length hstate hlen)
  · have hbit : s.tx.fieldBit 0 = false := by rw [fieldBit_length hstate, hlen]; rfl
    exact exec_txTick_of_exit (by simp [hstate]) (by simp [hstate]) hstep hbit (exitTransition_length_zero hstate hlen)

/-- Settles O20. -/
theorem txCrcExitCompletesTheFrame : Obligations.TxCrcExitCompletesTheFrame := by
  unfold Obligations.TxCrcExitCompletesTheFrame
  intro s hstep hstate
  exact exec_txTick_of_exit (by simp [hstate]) (by simp [hstate]) hstep (fieldBit_crc hstate 0)
    (exitTransition_crc hstate)

/-- Settles O22. -/
theorem txTickIdleDoesNothing : Obligations.TxTickIdleDoesNothing := by
  unfold Obligations.TxTickIdleDoesNothing
  exact fun s hidle => exec_txTick_of_tick (tick_idle s.cfg hidle)

/-- Settles O23. -/
theorem txCancelEndsTheSession : Obligations.TxCancelEndsTheSession := by
  unfold Obligations.TxCancelEndsTheSession
  refine fun s => ⟨fun hbusy => ?_, fun hidle => ?_⟩
  · rw [exec_txCancel, cancel_busy hbusy, completeTx_eq_after]
    rfl
  · rw [exec_txCancel, cancel_idle hidle, completeTx_eq_after]
    rfl

end Sys2Proof.Machine
end

section
/-! A single step of the receiver side (42_receive_framer.md R233 to R268, 43_clock_synchronizer.md R300 to R316): one
equation for each thing an internal procedure can do, and from them the whole next state of each command. -/

namespace Sys2Proof.Machine

variable (c : Config) {r : Receiver} {level : Level} {ts : Micros}

/-! ## Returning to the hunt -/

theorem abandonFrame_eq (code : FaultCode) (r : Receiver) :
    r.abandonFrame c code = (.freshHunt c r.rx.syncAttached,
      [.fault code, .rxCancelTrigger, .rxSetRecurring (nominalSampleUs c)]) := rfl

theorem start_of_stopped (h : r.rx.state = .stopped) :
    r.start c = (.freshHunt c r.rx.syncAttached, [.rxSetRecurring (nominalSampleUs c)]) := if_pos h

theorem start_of_not_stopped (h : r.rx.state ≠ .stopped) : r.start c = (r, []) := if_neg h

theorem stop_of_not_stopped (h : r.rx.state ≠ .stopped) :
    r.stop = ({ rx := { RxFramer.reset with syncAttached := r.rx.syncAttached }, dm := .reset, cr := .reset,
                sy := .reset }, [.rxCancelTrigger]) := if_neg h

theorem stop_of_stopped (h : r.rx.state = .stopped) : r.stop = (r, []) := if_pos h

theorem selectStrategy_hunting (attached : Bool) (h : r.rx.state = .syncHunt) :
    r.selectStrategy attached =
      { r with rx := { r.rx with syncAttached := attached }, sy := .reset, cr := .reset } := if_pos h

theorem selectStrategy_not_hunting (attached : Bool) (h : r.rx.state ≠ .syncHunt) :
    r.selectStrategy attached = { r with rx := { r.rx with syncAttached := attached }, sy := .reset } := if_neg h

/-! ## The hunt -/

theorem sample_static (hstate : r.rx.state = .syncHunt) (hattached : r.rx.syncAttached = false) :
    r.sample c level ts = r.staticCorrelate c level := by
  rw [sample_hunt c hstate, Receiver.hunt, hattached]
  rfl

theorem sample_dynamic (hstate : r.rx.state = .syncHunt) (hattached : r.rx.syncAttached = true) :
    r.sample c level ts = r.dynamicHunt c level ts := by
  rw [sample_hunt c hstate, Receiver.hunt, hattached]
  rfl

theorem staticCorrelate_match (h : shiftInNat (correlatorWidth c) r.cr.reg level = reference c) :
    r.staticCorrelate c level =
      ({ r with rx := { r.rx with state := .waitStart, buffer := 0#64, bitIndex := 0 }, dm := .reset, cr := .reset },
        []) := if_pos h

theorem staticCorrelate_miss (h : shiftInNat (correlatorWidth c) r.cr.reg level ≠ reference c) :
    r.staticCorrelate c level = ({ r with cr := { reg := shiftInNat (correlatorWidth c) r.cr.reg level } }, []) :=
  if_neg h

theorem dynamicHunt_of_none {y : SyncSession} (h : r.sy.sample c level ts = (y, .none)) :
    r.dynamicHunt c level ts = ({ r with sy := y }, []) := by
  simp [Receiver.dynamicHunt, h]

theorem dynamicHunt_of_fault {y : SyncSession} {code : FaultCode} (h : r.sy.sample c level ts = (y, .fault code)) :
    r.dynamicHunt c level ts = ({ r with sy := y }, [.fault code]) := by
  simp [Receiver.dynamicHunt, h]

/-- The receiver side after a dynamic recovery with the session `y` and the sample period `q` (42_receive_framer.md R257,
R258). -/
def Receiver.locked (r : Receiver) (y : SyncSession) (level : Level) (q : Micros) : Receiver where
  rx := { r.rx with state := .waitStart, buffer := 0#64, bitIndex := 0, samplePeriod := q }
  dm := { lowCount := if level then 0 else 1, highCount := if level then 1 else 0, slot := 2, lastBit := false }
  cr := .reset
  sy := y

theorem dynamicHunt_of_done {y : SyncSession} {period : Micros} (h : r.sy.sample c level ts = (y, .done period)) :
    r.dynamicHunt c level ts = (r.locked y level (micros (period.toNat / c.params.n)),
      [.rxSynchronized period, .rxSetRecurring (micros (period.toNat / c.params.n))]) := by
  cases level <;> simp [Receiver.dynamicHunt, h] <;> rfl

/-! ## A sample of the synchronizer -/

section
variable {y : SyncSession}

theorem syncSample_waitSync (h : y.state = .waitSync) : y.sample c level ts = (y.wait c level, .none) := by
  simp [SyncSession.sample, h]

theorem syncSample_collecting (h : y.state = .startSync ∨ y.state = .sync) :
    y.sample c level ts = y.collectRun c level ts := by
  obtain h | h := h <;> simp [SyncSession.sample, h]

theorem syncSample_done (h : y.state = .done) : y.sample c level ts = (y, .none) := by
  simp [SyncSession.sample, h]

theorem wait_high (y : SyncSession) : y.wait c true = { y with waitHigh := min (y.waitHigh + 1) c.params.sl } := rfl

theorem wait_low_short (h : y.waitHigh < c.params.sl) : y.wait c false = { y with waitHigh := 0 } := by
  rw [SyncSession.wait, if_neg Bool.false_ne_true, if_neg (Nat.not_le.mpr h)]

theorem wait_low_opens (h : c.params.sl ≤ y.waitHigh) :
    y.wait c false = { y with state := .startSync, waitHigh := 0, expected := 0, expectedValid := false,
                              runLevel := false, matched := 1, wrong := 0 } := by
  rw [SyncSession.wait, if_neg Bool.false_ne_true, if_pos h]
  rfl

/-- The window's lower end as a comparison of counts (43_clock_synchronizer.md R306). -/
theorem lo_le_iff (y : SyncSession) : y.lo c ≤ (y.matched : Int) ↔
    if y.expectedValid then y.expected ≤ y.matched + c.params.vt else c.params.sl ≤ y.matched := by
  unfold SyncSession.lo
  split_ifs <;> omega

/-- The run's level again, within the window. -/
theorem collectRun_counted (hlevel : level = y.runLevel) (h : y.matched + 1 ≤ y.hi c) :
    y.collectRun c level ts = ({ y with matched := y.matched + 1 }, .none) := by
  have hmore : ¬ y.hi c < y.matched + 1 := Nat.not_lt.mpr h
  simp [SyncSession.collectRun, SyncSession.collect, hlevel, hmore]

/-- The run's level again, beyond the window's upper end. -/
theorem collectRun_overrun (hlevel : level = y.runLevel) (h : y.hi c < y.matched + 1) :
    y.collectRun c level ts = (.reset, .fault .syncRun) := by
  simp [SyncSession.collectRun, SyncSession.collect, hlevel, h]

/-- The opposite level, tolerated. -/
theorem collectRun_tolerated (hlevel : level ≠ y.runLevel) (hlo : ¬ y.lo c ≤ (y.matched : Int))
    (h : y.wrong < c.params.stol) : y.collectRun c level ts = ({ y with wrong := y.wrong + 1 }, .none) := by
  have hmore : ¬ c.params.stol < y.wrong + 1 := by omega
  simp [SyncSession.collectRun, SyncSession.collect, hlevel, hlo, hmore]

/-- The opposite level once too often. -/
theorem collectRun_wrong (hlevel : level ≠ y.runLevel) (hlo : ¬ y.lo c ≤ (y.matched : Int))
    (h : c.params.stol ≤ y.wrong) : y.collectRun c level ts = (.reset, .fault .syncRun) := by
  have hfail : c.params.stol < y.wrong + 1 := by omega
  simp [SyncSession.collectRun, SyncSession.collect, hlevel, hlo, hfail]

/-- The opposite level after enough samples: the run is complete. -/
theorem collectRun_complete (hlevel : level ≠ y.runLevel) (hlo : y.lo c ≤ (y.matched : Int)) :
    y.collectRun c level ts = y.runComplete c level ts (y.matched + y.wrong) := by
  simp [SyncSession.collectRun, SyncSession.collect, hlevel, hlo]

theorem runComplete_first (hstate : y.state = .startSync) (hvalid : y.expectedValid = false) (total : Nat) :
    y.runComplete c level ts total =
      ({ y with expected := total, expectedValid := true, t0 := ts, runLevel := level, matched := 1, wrong := 0 },
        .none) := if_pos ⟨hstate, hvalid⟩

theorem runComplete_later (hvalid : y.expectedValid = true) (h : y.processed + 1 ≠ c.params.syncLength) (total : Nat) :
    y.runComplete c level ts total =
      ({ y with state := .sync, processed := y.processed + 1, runLevel := level, matched := 1, wrong := 0 },
        .none) := by
  simp [SyncSession.runComplete, hvalid, h, SyncSession.newRun]

theorem runComplete_last (hvalid : y.expectedValid = true) (h : y.processed + 1 = c.params.syncLength) (total : Nat) :
    y.runComplete c level ts total =
      SyncSession.finish c { y with processed := c.params.syncLength } ts := by
  simp [SyncSession.runComplete, hvalid, h]

theorem finish_locks (hlo : c.params.rateLo ≤ y.estimate c ts) (hhi : y.estimate c ts ≤ c.params.rateHi) :
    y.finish c ts =
      ({ y with detected := micros (y.estimate c ts), state := .done }, .done (micros (y.estimate c ts))) :=
  if_pos ⟨hlo, hhi⟩

theorem finish_rejects (h : y.estimate c ts < c.params.rateLo ∨ c.params.rateHi < y.estimate c ts) :
    y.finish c ts = (.reset, .fault .syncRate) := if_neg (by omega)

/-- The elapsed time modulo 2^32 as a difference of numbers (43_clock_synchronizer.md R312). -/
theorem estimate_eq (y : SyncSession) (ts : Micros) : y.estimate c ts =
    (ts.toNat + 2 ^ 32 - y.t0.toNat) % 2 ^ 32 * c.params.m / c.params.syncLength := by
  have helapsed : (ts - y.t0).toNat = (ts.toNat + 2 ^ 32 - y.t0.toNat) % 2 ^ 32 := by bv_omega
  rw [SyncSession.estimate, helapsed]

end

/-! ## A frame sample -/

theorem frameSample_of_none {d : Demod} (h : r.dm.sample c level = (d, .none)) :
    r.frameSample c level = ({ r with dm := d }, []) := by
  simp [Receiver.frameSample, h]

theorem frameSample_of_fault {d : Demod} (h : r.dm.sample c level = (d, .fault)) :
    r.frameSample c level = (.freshHunt c r.rx.syncAttached,
      [.fault .sampling, .rxCancelTrigger, .rxSetRecurring (nominalSampleUs c)]) := by
  simp [Receiver.frameSample, h, abandonFrame_eq]

theorem frameSample_of_bit {d : Demod} {b : Bool} (h : r.dm.sample c level = (d, .bit b)) :
    r.frameSample c level = Receiver.framerBit c { r with dm := d } b := by
  simp [Receiver.frameSample, h]

/-- The sample that completes a bit cell of `b` hands `b` to the framer. -/
theorem sample_of_decides {b : Bool} (hframe : r.rx.state.inFrame = true) (h : r.dm.decides c b) :
    r.sample c level ts = Receiver.framerBit c { r with dm := .decided b } b := by
  rw [sample_frame c hframe, frameSample_of_bit c (sample_decides c h level)]

section
variable {b : Bool}

theorem framerBit_waitStart (h : r.rx.state = .waitStart) : r.framerBit c b = r.waitStartBit c b := by
  simp [Receiver.framerBit, h]

theorem framerBit_readLength (h : r.rx.state = .readLength) : r.framerBit c b = r.readLengthBit c b := by
  simp [Receiver.framerBit, h]

theorem framerBit_readPayload (h : r.rx.state = .readPayload) : r.framerBit c b = r.readPayloadBit b := by
  simp [Receiver.framerBit, h]

theorem framerBit_readCrc (h : r.rx.state = .readCrc) : r.framerBit c b = r.readCrcBit c b := by
  simp [Receiver.framerBit, h]

/-- The marker window after a bit, as a number. -/
theorem window_eq_marker_iff (buffer : BitVec 64) (b : Bool) :
    shiftIn markerLen buffer b = markerValue.setWidth 64 ↔ shiftInNat 12 buffer.toNat b = 0xA39 := by
  rw [← BitVec.toNat_inj, shiftIn_toNat (by decide)]
  rfl

theorem waitStartBit_match (h : shiftInNat 12 r.rx.buffer.toNat b = 0xA39) :
    r.waitStartBit c b = ({ r with rx := { r.rx with state := .readLength, buffer := 0#64, bitIndex := 0 } }, []) :=
  if_pos ((window_eq_marker_iff _ _).mpr h)

theorem waitStartBit_more (h : shiftInNat 12 r.rx.buffer.toNat b ≠ 0xA39) (hindex : r.rx.bitIndex < 48) :
    r.waitStartBit c b = ({ r with rx := r.rx.take 12 b }, []) := by
  have hmiss : ¬ (r.rx.take markerLen b).buffer = markerValue.setWidth 64 := mt (window_eq_marker_iff _ _).mp h
  have hmore : ¬ waitStartLimit < (r.rx.take markerLen b).bitIndex := by
    simp only [take_bitIndex, waitStartLimit, preambleLen, markerLen]
    omega
  simp only [Receiver.waitStartBit, if_neg hmiss, if_neg hmore]
  rfl

theorem waitStartBit_lost (h : shiftInNat 12 r.rx.buffer.toNat b ≠ 0xA39) (hindex : 48 ≤ r.rx.bitIndex) :
    r.waitStartBit c b = (.freshHunt c r.rx.syncAttached,
      [.fault .syncLost, .rxCancelTrigger, .rxSetRecurring (nominalSampleUs c)]) := by
  have hmiss : ¬ (r.rx.take markerLen b).buffer = markerValue.setWidth 64 := mt (window_eq_marker_iff _ _).mp h
  have hlost : waitStartLimit < (r.rx.take markerLen b).bitIndex := by
    simp only [take_bitIndex, waitStartLimit, preambleLen, markerLen]
    omega
  simp only [Receiver.waitStartBit, if_neg hmiss, if_pos hlost]
  rfl

theorem readLengthBit_more (h : r.rx.bitIndex + 1 ≠ 7) :
    r.readLengthBit c b = ({ r with rx := r.rx.take 64 b }, []) := if_neg h

theorem readLengthBit_over (h : r.rx.bitIndex + 1 = 7) (hv : 64 < (shiftIn 64 r.rx.buffer b).toNat) :
    r.readLengthBit c b = (.freshHunt c r.rx.syncAttached,
      [.fault .frameInvalid, .rxCancelTrigger, .rxSetRecurring (nominalSampleUs c)]) :=
  (if_pos h).trans (if_pos hv)

theorem readLengthBit_zero (h : r.rx.bitIndex + 1 = 7) (hv : (shiftIn 64 r.rx.buffer b).toNat = 0) :
    r.readLengthBit c b =
      ({ r with rx := { r.rx with state := .readCrc, length := 0#7, payload := 0#64, buffer := 0#64, bitIndex := 0 } },
        []) := by
  have hle : ¬ maxPayload < (r.rx.take 64 b).buffer.toNat := by rw [take_buffer, hv]; decide
  have hzero : (r.rx.take 64 b).buffer.setWidth 7 = 0#7 := by
    rw [take_buffer, BitVec.eq_of_toNat_eq (y := 0#64) hv]
    rfl
  refine (if_pos h).trans ((if_neg hle).trans ?_)
  simp only [hzero, if_true]
  rfl

theorem readLengthBit_stores (h : r.rx.bitIndex + 1 = 7) (hpos : 1 ≤ (shiftIn 64 r.rx.buffer b).toNat)
    (hle : (shiftIn 64 r.rx.buffer b).toNat ≤ 64) :
    r.readLengthBit c b =
      ({ r with rx := { r.rx with state := .readPayload, length := (shiftIn 64 r.rx.buffer b).setWidth 7,
                                  buffer := 0#64, bitIndex := 0 } }, []) := by
  have hle' : ¬ maxPayload < (r.rx.take 64 b).buffer.toNat := Nat.not_lt.mpr hle
  have hnonzero : (r.rx.take 64 b).buffer.setWidth 7 ≠ 0#7 := by
    rw [take_buffer, Ne, ← BitVec.toNat_inj, BitVec.toNat_setWidth, Nat.mod_eq_of_lt (by omega)]
    exact Nat.one_le_iff_ne_zero.mp hpos
  refine (if_pos h).trans ((if_neg hle').trans ?_)
  simp only [hnonzero, if_false]
  rfl

theorem readPayloadBit_more (h : r.rx.bitIndex + 1 ≠ r.rx.length.toNat) :
    r.readPayloadBit b = ({ r with rx := r.rx.take 64 b }, []) := if_neg h

theorem readPayloadBit_done (h : r.rx.bitIndex + 1 = r.rx.length.toNat) :
    r.readPayloadBit b =
      ({ r with rx := { r.rx with state := .readCrc, payload := shiftIn 64 r.rx.buffer b, buffer := 0#64,
                                  bitIndex := 0 } }, []) := if_pos h

theorem readCrcBit_more (h : r.rx.bitIndex + 1 ≠ 16) :
    r.readCrcBit c b = ({ r with rx := r.rx.take 16 b }, []) := if_neg h

theorem readCrcBit_done (h : r.rx.bitIndex + 1 = 16) :
    r.readCrcBit c b = (.freshHunt c r.rx.syncAttached,
      [.rxMessage r.rx.payload r.rx.length ((shiftIn 16 r.rx.buffer b).setWidth 16), .rxCancelTrigger,
        .rxSetRecurring (nominalSampleUs c)]) := if_pos h

end

end Sys2Proof.Machine
end

section
/-! The receiver commands at the ports (42_receive_framer.md R233 to R268, 43_clock_synchronizer.md R300 to R316): the
whole next state of each, from the equation of what the receiver side does. -/

namespace Sys2Proof.Machine

variable {s : State} {r : Receiver} {lvl : Level} {ts : Micros}

/-! ## How a receiver step ends -/

theorem completeRx_eq_after (s : State) (p : Receiver × List Event) :
    s.completeRx p = s.after s.tx p.1 (s.agents.observeAll p.2) .ok p.2 := rfl

/-- A sample without an event: the trigger has fired and nothing was asked of it. -/
theorem exec_rxSample_quiet (h : s.rcv.sample s.cfg lvl ts = (r, [])) :
    exec (.rxSample lvl ts) s = .next (s.afterSample r []) := by
  rw [exec_rxSample, h]
  rfl

/-- A sample that reports a fault alone asks nothing of the trigger either. -/
theorem exec_rxSample_faultAlone {code : FaultCode} (h : s.rcv.sample s.cfg lvl ts = (r, [.fault code])) :
    exec (.rxSample lvl ts) s = .next (s.afterSample r [.fault code]) := by
  rw [exec_rxSample, h]
  rfl

/-- A fault or a message asks nothing of a collaborator. -/
theorem observe_report {e : Event} (h : e.isReport = true) (a : Agents) : a.observe e = a := by
  cases e with
  | fault | rxMessage => rfl
  | setSignal | txSetOneShot | txSetRecurring | txCancelTrigger | txComplete | rxSetRecurring | rxCancelTrigger
  | rxSynchronized => cases h

/-- A sample that ends a frame with the report `e`. -/
theorem exec_rxSample_frameEnd {e : Event} (he : e.isReport = true)
    (h : s.rcv.sample s.cfg lvl ts = (.freshHunt s.cfg s.rcv.rx.syncAttached,
      [e, .rxCancelTrigger, .rxSetRecurring (nominalSampleUs s.cfg)])) :
    exec (.rxSample lvl ts) s = .next (s.afterFrame e) := by
  rw [exec_rxSample, h, completeRx_eq_after]
  simp only [observeAll_cons, observe_report he]
  rfl

/-! ## RX_START, RX_STOP and the strategy -/

/-- Settles O25. -/
theorem rxStartOpensTheHunt : Obligations.RxStartOpensTheHunt := by
  unfold Obligations.RxStartOpensTheHunt
  refine fun s => ⟨fun h => ?_, fun h => ?_⟩
  · rw [exec_rxStart, start_of_stopped s.cfg h, completeRx_eq_after]
    rfl
  · rw [exec_rxStart, start_of_not_stopped s.cfg h, completeRx_eq_after]
    rfl

/-- Settles O26. -/
theorem rxStopAbandonsReception : Obligations.RxStopAbandonsReception := by
  unfold Obligations.RxStopAbandonsReception
  refine fun s => ⟨fun h => ?_, fun h => ?_⟩
  · rw [exec_rxStop, stop_of_not_stopped h, completeRx_eq_after]
    rfl
  · rw [exec_rxStop, stop_of_stopped h, completeRx_eq_after]
    rfl

/-- Settles O27. -/
theorem rxStrategyCommandsSelectTheHunt : Obligations.RxStrategyCommandsSelectTheHunt := by
  unfold Obligations.RxStrategyCommandsSelectTheHunt
  refine fun s => ⟨fun h => ?_, fun h => ?_⟩
  · rw [exec_rxAttachSync, exec_rxDetachSync, selectStrategy_hunting true h, selectStrategy_hunting false h]
    exact ⟨rfl, rfl⟩
  · rw [exec_rxAttachSync, exec_rxDetachSync, selectStrategy_not_hunting true h, selectStrategy_not_hunting false h]
    exact ⟨rfl, rfl⟩

/-! ## RX_SAMPLE in the hunt -/

/-- Settles O28. -/
theorem samplesWithoutAConsumerDoNothing : Obligations.SamplesWithoutAConsumerDoNothing := by
  unfold Obligations.SamplesWithoutAConsumerDoNothing
  refine fun s lvl ts => ⟨fun h => ?_, fun hhunt hattached hdone => ?_⟩
  · exact exec_rxSample_quiet (sample_stopped s.cfg h lvl ts)
  · have hsession := syncSample_done (level := lvl) (ts := ts) s.cfg hdone
    exact exec_rxSample_quiet ((sample_dynamic s.cfg hhunt hattached).trans (dynamicHunt_of_none s.cfg hsession))

/-- Settles O29. -/
theorem staticHuntShiftsAndMatches : Obligations.StaticHuntShiftsAndMatches := by
  unfold Obligations.StaticHuntShiftsAndMatches
  rintro s lvl ts _ hhunt hattached rfl
  refine ⟨fun hmiss => ?_, fun hmatch => ?_⟩
  · exact exec_rxSample_quiet ((sample_static s.cfg hhunt hattached).trans (staticCorrelate_miss s.cfg hmiss))
  · exact exec_rxSample_quiet ((sample_static s.cfg hhunt hattached).trans (staticCorrelate_match s.cfg hmatch))

/-- A sample of the dynamic hunt that reports nothing. -/
theorem exec_rxSample_session {y : SyncSession} (hhunt : s.rcv.rx.state = .syncHunt)
    (hattached : s.rcv.rx.syncAttached = true) (h : s.rcv.sy.sample s.cfg lvl ts = (y, .none)) :
    exec (.rxSample lvl ts) s = .next (s.afterSample { s.rcv with sy := y } []) :=
  exec_rxSample_quiet ((sample_dynamic s.cfg hhunt hattached).trans (dynamicHunt_of_none s.cfg h))

/-- A sample of the dynamic hunt on which the synchronizer faults. -/
theorem exec_rxSample_sessionFault {code : FaultCode} (hhunt : s.rcv.rx.state = .syncHunt)
    (hattached : s.rcv.rx.syncAttached = true) (h : s.rcv.sy.sample s.cfg lvl ts = (.reset, .fault code)) :
    exec (.rxSample lvl ts) s = .next (s.afterSample { s.rcv with sy := .reset } [.fault code]) :=
  exec_rxSample_faultAlone ((sample_dynamic s.cfg hhunt hattached).trans (dynamicHunt_of_fault s.cfg h))

/-- Settles O42. -/
theorem waitSyncCountsTheLeadingHighs : Obligations.WaitSyncCountsTheLeadingHighs := by
  unfold Obligations.WaitSyncCountsTheLeadingHighs
  intro s lvl ts hhunt hattached hstate
  have hsession := syncSample_waitSync (level := lvl) (ts := ts) s.cfg hstate
  refine ⟨?_, ?_, ?_⟩
  · rintro rfl
    rw [wait_high] at hsession
    exact exec_rxSample_session hhunt hattached hsession
  · rintro rfl hshort
    rw [wait_low_short s.cfg hshort] at hsession
    exact exec_rxSample_session hhunt hattached hsession
  · rintro rfl hopens
    rw [wait_low_opens s.cfg hopens] at hsession
    exact exec_rxSample_session hhunt hattached hsession

/-- Settles O43. -/
theorem runCollectionKeepsItsWindow : Obligations.RunCollectionKeepsItsWindow := by
  unfold Obligations.RunCollectionKeepsItsWindow
  rintro s lvl ts _ hhunt hattached hstate rfl
  have hsession := syncSample_collecting (level := lvl) (ts := ts) s.cfg hstate
  refine ⟨fun hlevel hin => ?_, fun hlevel hout => ?_, fun hlevel hshort => ?_⟩
  · exact exec_rxSample_session hhunt hattached (hsession.trans (collectRun_counted s.cfg hlevel hin))
  · exact exec_rxSample_sessionFault hhunt hattached (hsession.trans (collectRun_overrun s.cfg hlevel hout))
  · have hlo : ¬ s.rcv.sy.lo s.cfg ≤ (s.rcv.sy.matched : Int) := by
      rw [lo_le_iff]
      split_ifs at hshort ⊢ <;> omega
    refine ⟨fun hfew => ?_, fun hmany => ?_⟩
    · exact exec_rxSample_session hhunt hattached (hsession.trans (collectRun_tolerated s.cfg hlevel hlo hfew))
    · exact exec_rxSample_sessionFault hhunt hattached (hsession.trans (collectRun_wrong s.cfg hlevel hlo hmany))

/-- Settles O44. -/
theorem firstLowRunSetsTheExpectedCount : Obligations.FirstLowRunSetsTheExpectedCount := by
  unfold Obligations.FirstLowRunSetsTheExpectedCount
  intro s lvl ts hhunt hattached hstate hvalid hlevel hlong
  have hlo : s.rcv.sy.lo s.cfg ≤ (s.rcv.sy.matched : Int) := by simpa [lo_le_iff, hvalid] using hlong
  exact exec_rxSample_session hhunt hattached ((syncSample_collecting s.cfg (.inl hstate)).trans
    ((collectRun_complete s.cfg hlevel hlo).trans (runComplete_first s.cfg hstate hvalid _)))

/-- Settles O45. -/
theorem aLaterRunCountsAHalfBit : Obligations.ALaterRunCountsAHalfBit := by
  unfold Obligations.ALaterRunCountsAHalfBit
  intro s lvl ts hhunt hattached hstate hvalid hlevel hlong hmore
  have hlo : s.rcv.sy.lo s.cfg ≤ (s.rcv.sy.matched : Int) := by simpa [lo_le_iff, hvalid] using hlong
  exact exec_rxSample_session hhunt hattached ((syncSample_collecting s.cfg hstate).trans
    ((collectRun_complete s.cfg hlevel hlo).trans (runComplete_later s.cfg hvalid hmore _)))

/-- Settles O46: the estimate is the period of the statement, and inside the rate window it fits an event operand. -/
theorem theLastRunLocksOrRejectsTheRate : Obligations.TheLastRunLocksOrRejectsTheRate := by
  unfold Obligations.TheLastRunLocksOrRejectsTheRate
  intro s lvl ts period hhunt hattached hstate hvalid hlevel hlong hlast hperiod
  have hlo : s.rcv.sy.lo s.cfg ≤ (s.rcv.sy.matched : Int) := by simpa [lo_le_iff, hvalid] using hlong
  have hsession := (syncSample_collecting s.cfg hstate).trans
    ((collectRun_complete (ts := ts) s.cfg hlevel hlo).trans (runComplete_last s.cfg hvalid hlast _))
  have hestimate : SyncSession.estimate s.cfg { s.rcv.sy with processed := s.cfg.params.syncLength } ts = period := by
    rw [estimate_eq, hperiod]
  refine ⟨fun hmin hmax => ?_, fun hout => ?_⟩
  · rw [finish_locks s.cfg (hestimate.symm ▸ hmin) (hestimate.symm ▸ hmax), hestimate] at hsession
    obtain ⟨-, -, -, -, -, -, -, -, -, -, -, -, hbound, -⟩ := Config.facts s.cfg
    have hsample := (sample_dynamic s.cfg hhunt hattached).trans (dynamicHunt_of_done s.cfg hsession)
    rw [micros_toNat (lt_of_le_of_lt hmax hbound)] at hsample
    rw [exec_rxSample, hsample]
    rfl
  · rw [finish_rejects s.cfg (hestimate.symm ▸ hout)] at hsession
    exact exec_rxSample_sessionFault hhunt hattached hsession

/-! ## RX_SAMPLE in a frame -/

/-- A frame sample that completes no bit. -/
theorem exec_rxSample_cell {d : Demod} (hframe : s.rcv.rx.state.inFrame = true)
    (h : s.rcv.dm.sample s.cfg lvl = (d, .none)) :
    exec (.rxSample lvl ts) s = .next (s.afterSample { s.rcv with dm := d } []) :=
  exec_rxSample_quiet ((sample_frame s.cfg hframe lvl ts).trans (frameSample_of_none s.cfg h))

/-- Settles O31. -/
theorem frameSampleInsideACell : Obligations.FrameSampleInsideACell := by
  unfold Obligations.FrameSampleInsideACell
  intro s lvl ts hframe
  obtain ⟨hn, -⟩ := Config.facts s.cfg
  refine ⟨fun hslot => exec_rxSample_cell hframe (sample_firstSlot lvl hslot), ?_, ?_⟩
  · rintro hone hinner rfl
    exact exec_rxSample_cell hframe (sample_innerSlot true hone (by omega))
  · rintro hone hinner rfl
    exact exec_rxSample_cell hframe (sample_innerSlot false hone (by omega))

/-- Settles O32. -/
theorem samplingFaultAbandonsTheFrame : Obligations.SamplingFaultAbandonsTheFrame := by
  unfold Obligations.SamplingFaultAbandonsTheFrame
  intro s lvl ts hframe hslot hhigh hlow
  obtain ⟨hn, -⟩ := Config.facts s.cfg
  have hlast : s.rcv.dm.slot + 1 = s.cfg.params.n := by omega
  exact exec_rxSample_frameEnd rfl
    ((sample_frame s.cfg hframe lvl ts).trans (frameSample_of_fault s.cfg (sample_faults lvl hlast hhigh hlow)))

/-- Settles O35. -/
theorem waitStartBitShiftsTheMarkerWindow : Obligations.WaitStartBitShiftsTheMarkerWindow := by
  unfold Obligations.WaitStartBitShiftsTheMarkerWindow
  rintro s b lvl ts _ hstate hdecides rfl
  have hsample : s.rcv.sample s.cfg lvl ts =
      Receiver.waitStartBit s.cfg { s.rcv with dm := .decided b } b :=
    (sample_of_decides s.cfg (by rw [hstate]; rfl) hdecides).trans (framerBit_waitStart s.cfg hstate)
  refine ⟨fun hmatch => ?_, fun hmiss hmore => ?_, fun hmiss hlost => ?_⟩
  · exact exec_rxSample_quiet (hsample.trans (waitStartBit_match s.cfg hmatch))
  · exact exec_rxSample_quiet (hsample.trans (waitStartBit_more s.cfg hmiss hmore))
  · exact exec_rxSample_frameEnd rfl (hsample.trans (waitStartBit_lost s.cfg hmiss hlost))

/-- An accumulator below 2^63 doubles and adds without loss. -/
theorem shiftIn_64_toNat {buffer : BitVec 64} (b : Bool) (h : buffer.toNat < 2 ^ 63) :
    (shiftIn 64 buffer b).toNat = 2 * buffer.toNat + bitNat b := by
  rw [shiftIn_toNat (le_refl 64), shiftInNat_eq b (by omega)]

/-- At the accumulator's own width the modulus is the word's. -/
theorem shiftIn_64 (buffer : BitVec 64) (b : Bool) :
    shiftIn 64 buffer b = BitVec.ofNat 64 (2 * buffer.toNat + bitNat b) := by
  apply BitVec.eq_of_toNat_eq
  simp [shiftIn, shiftInNat]

/-- Settles O36. -/
theorem readLengthBitChecksTheLength : Obligations.ReadLengthBitChecksTheLength := by
  unfold Obligations.ReadLengthBitChecksTheLength
  intro s b lvl ts v hstate hdecides hbuffer hv
  have hsample : s.rcv.sample s.cfg lvl ts =
      Receiver.readLengthBit s.cfg { s.rcv with dm := .decided b } b :=
    (sample_of_decides s.cfg (by rw [hstate]; rfl) hdecides).trans (framerBit_readLength s.cfg hstate)
  have hvalue : (shiftIn 64 s.rcv.rx.buffer b).toNat = v := (shiftIn_64_toNat b hbuffer).trans hv.symm
  have hword : shiftIn 64 s.rcv.rx.buffer b = BitVec.ofNat 64 v := by rw [shiftIn_64, hv]; rfl
  refine ⟨fun hmore => ?_, fun hseventh hover => ?_, fun hseventh hpos hle => ?_, fun hseventh hzero => ?_⟩
  · have hquiet := hsample.trans (readLengthBit_more s.cfg hmore)
    rw [RxFramer.take, hword] at hquiet
    exact exec_rxSample_quiet hquiet
  · exact exec_rxSample_frameEnd rfl (hsample.trans (readLengthBit_over s.cfg hseventh (hvalue.symm ▸ hover)))
  · have hlen : (shiftIn 64 s.rcv.rx.buffer b).setWidth 7 = BitVec.ofNat 7 v := by
      rw [← hvalue, BitVec.ofNat_toNat]
    have hquiet := hsample.trans (readLengthBit_stores s.cfg hseventh (hvalue.symm ▸ hpos) (hvalue.symm ▸ hle))
    rw [hlen] at hquiet
    exact exec_rxSample_quiet hquiet
  · exact exec_rxSample_quiet (hsample.trans (readLengthBit_zero s.cfg hseventh (hvalue.trans hzero)))

/-- Settles O37. -/
theorem readPayloadBitFillsThePayload : Obligations.ReadPayloadBitFillsThePayload := by
  unfold Obligations.ReadPayloadBitFillsThePayload
  intro s b lvl ts v hstate hdecides hv
  have hsample : s.rcv.sample s.cfg lvl ts = Receiver.readPayloadBit { s.rcv with dm := .decided b } b :=
    (sample_of_decides s.cfg (by rw [hstate]; rfl) hdecides).trans (framerBit_readPayload s.cfg hstate)
  have hword : shiftIn 64 s.rcv.rx.buffer b = v := (shiftIn_64 _ b).trans hv.symm
  refine ⟨fun hmore => ?_, fun hlast => ?_⟩
  · have hquiet := hsample.trans (readPayloadBit_more hmore)
    rw [RxFramer.take, hword] at hquiet
    exact exec_rxSample_quiet hquiet
  · have hquiet := hsample.trans (readPayloadBit_done hlast)
    rw [hword] at hquiet
    exact exec_rxSample_quiet hquiet

/-- Settles O38. -/
theorem readCrcBitReportsTheMessage : Obligations.ReadCrcBitReportsTheMessage := by
  unfold Obligations.ReadCrcBitReportsTheMessage
  rintro s b lvl ts _ hstate hdecides rfl
  have hsample : s.rcv.sample s.cfg lvl ts = Receiver.readCrcBit s.cfg { s.rcv with dm := .decided b } b :=
    (sample_of_decides s.cfg (by rw [hstate]; rfl) hdecides).trans (framerBit_readCrc s.cfg hstate)
  refine ⟨fun hmore => ?_, fun hlast => ?_⟩
  · exact exec_rxSample_quiet (hsample.trans (readCrcBit_more s.cfg hmore))
  · have hcrc : (shiftIn 16 s.rcv.rx.buffer b).setWidth 16 =
        BitVec.ofNat 16 (shiftInNat 16 s.rcv.rx.buffer.toNat b) := by
      rw [← shiftIn_toNat (by decide), BitVec.ofNat_toNat]
    have hend := hsample.trans (readCrcBit_done s.cfg hlast)
    rw [hcrc] at hend
    exact exec_rxSample_frameEnd rfl hend

end Sys2Proof.Machine
end

section
/-! The words a host reads (30_encoding.md R120, R131): an event word gives its event back, and each field of the status
word is the part of the state it stands for. After them, the values of power-on and RESET. -/

namespace Sys2Proof.Machine

/-! ## Event words (R120) -/

/-- The fault of a CODE (60_exceptions.md R352). -/
def FaultCode.ofCode : BitVec 8 → Option FaultCode
  | 1#8 => some .sampling
  | 2#8 => some .frameInvalid
  | 3#8 => some .syncLost
  | 4#8 => some .syncRun
  | 5#8 => some .syncRate
  | _ => none

theorem FaultCode.ofCode_code (f : FaultCode) : FaultCode.ofCode f.code = some f := by cases f <;> rfl

/-- The event a word stands for, read from the fields of its EVC. -/
def Event.ofWord (w : EventWord) : Option Event :=
  match (w.extractLsb' 0 4).toNat with
  | 1 => some (.setSignal (w.getLsbD 8))
  | 2 => some (.txSetOneShot (w.extractLsb' 32 32))
  | 3 => some (.txSetRecurring (w.extractLsb' 32 32))
  | 4 => some .txCancelTrigger
  | 5 => some .txComplete
  | 6 => some (.rxSetRecurring (w.extractLsb' 32 32))
  | 7 => some .rxCancelTrigger
  | 8 => some (.rxMessage (w.extractLsb' 64 64) (w.extractLsb' 16 7) (w.extractLsb' 32 16))
  | 9 => some (.rxSynchronized (w.extractLsb' 32 32))
  | 10 => (FaultCode.ofCode (w.extractLsb' 16 8)).map .fault
  | _ => none

/-- No operand of an event reaches into its EVC. -/
theorem evc_word (e : Event) : e.word.extractLsb' 0 4 = e.code := by
  refine extract_eq fun i hi => ?_
  have hoperands : e.operands.getLsbD i = false := by
    cases e <;> simp [Event.operands] <;> omega
  have hlt : i < 128 := by omega
  rw [Nat.zero_add, Event.word, BitVec.getLsbD_or, hoperands]
  simp [hlt]

/-- A field of an event word above its EVC is a field of its operands. -/
theorem extract_word (e : Event) {lo : Nat} (hlo : 4 ≤ lo) (n : Nat) :
    e.word.extractLsb' lo n = e.operands.extractLsb' lo n := by
  apply BitVec.eq_of_getLsbD_eq
  intro i hi
  have hcode : e.code.getLsbD (lo + i) = false := BitVec.getLsbD_of_ge _ _ (by omega)
  simp [Event.word, hcode]

/-- A placed field that fits is read back from its place. -/
theorem extract_placeAt {n : Nat} (v : BitVec n) {lo : Nat} (h : lo + n ≤ 128) :
    (placeAt 128 v lo).extractLsb' lo n = v := by
  refine extract_eq fun i hi => ?_
  have hlt : lo + i < 128 := by omega
  simp [hlt]

/-- A field is read as 0 where another is placed. -/
theorem extract_placeAt_disjoint {n : Nat} (v : BitVec n) {lo lo' n' : Nat} (h : lo + n ≤ lo' ∨ lo' + n' ≤ lo) :
    (placeAt 128 v lo).extractLsb' lo' n' = 0#n' := by
  refine extract_eq fun i hi => ?_
  obtain h | h := h
  · simp [BitVec.getLsbD_of_ge v (lo' + i - lo) (by omega)]
  · have hlow : ¬ lo ≤ lo' + i := by omega
    simp [hlow]

theorem extract_or {w : Nat} (a b : BitVec w) (lo n : Nat) :
    (a ||| b).extractLsb' lo n = a.extractLsb' lo n ||| b.extractLsb' lo n := by
  apply BitVec.eq_of_getLsbD_eq
  intro i hi
  simp [hi]

theorem ofWord_word (e : Event) : Event.ofWord e.word = some e := by
  cases e with
  | setSignal lvl =>
    have hlvl : (Event.setSignal lvl).word[8] = lvl := by
      simp [Event.word, Event.operands, BitVec.getLsbD_of_ge]
    simp [Event.ofWord, evc_word, Event.code, hlvl]
  | txSetOneShot us | txSetRecurring us | rxSetRecurring us | rxSynchronized us =>
    simp [Event.ofWord, evc_word, Event.code, extract_word, Event.operands, extract_placeAt]
  | rxMessage payload len crc =>
    simp [Event.ofWord, evc_word, Event.code, extract_word, Event.operands, extract_or, extract_placeAt,
      extract_placeAt_disjoint]
  | fault code =>
    simp [Event.ofWord, evc_word, Event.code, extract_word, Event.operands, extract_placeAt, FaultCode.ofCode_code]
  | txCancelTrigger | txComplete | rxCancelTrigger => simp [Event.ofWord, evc_word, Event.code]

/-- Settles O7: the word gives the event back, and its EVC is the event's code. -/
theorem eventWordsAreDistinct : Obligations.EventWordsAreDistinct := by
  unfold Obligations.EventWordsAreDistinct
  refine ⟨fun e f h => ?_, fun e => ?_⟩
  · have hread : some e = some f := by rw [← ofWord_word e, ← ofWord_word f, h]
    exact Option.some.inj hread
  · rw [evc_word]
    cases e <;> simp [Event.code]

/-- Settles O8: each word is computed from the event's code and fields. -/
theorem eventWordsOfTheSpec : Obligations.EventWordsOfTheSpec := by
  unfold Obligations.EventWordsOfTheSpec
  refine ⟨?_, ?_, ?_, ?_, ?_, ?_, ?_, ?_, ?_, ?_, ?_, ?_, ?_, ?_⟩ <;> decide

/-! ## The status word (R131) -/

variable (s : State)

theorem statusWord_txState : s.statusWord.extractLsb' 0 3 = s.tx.state.code := by
  refine extract_eq fun i hi => ?_
  interval_cases i <;> simp [State.statusWord]

theorem statusWord_txLine : s.statusWord.getLsbD 3 = s.tx.line := by
  simp [State.statusWord]

theorem statusWord_rxState : s.statusWord.extractLsb' 4 3 = s.rcv.rx.state.code := by
  refine extract_eq fun i hi => ?_
  interval_cases i <;> simp [State.statusWord]

theorem statusWord_syncAttached : s.statusWord.getLsbD 7 = s.rcv.rx.syncAttached := by
  simp [State.statusWord]

theorem statusWord_txStep : s.statusWord.extractLsb' 12 7 = BitVec.ofNat 7 s.tx.stepIndex := by
  refine extract_eq fun i hi => ?_
  interval_cases i <;> simp [State.statusWord]

theorem statusWord_rxBitIndex : s.statusWord.extractLsb' 20 7 = BitVec.ofNat 7 s.rcv.rx.bitIndex := by
  refine extract_eq fun i hi => ?_
  interval_cases i <;> simp [State.statusWord]

theorem statusWord_reserved :
    s.statusWord.extractLsb' 10 2 = 0#2 ∧ s.statusWord.getLsbD 19 = false ∧ s.statusWord.extractLsb' 27 5 = 0#5 := by
  refine ⟨extract_eq fun i hi => ?_, ?_, extract_eq fun i hi => ?_⟩
  · interval_cases i <;> simp [State.statusWord]
  · simp [State.statusWord]
  · interval_cases i <;> simp [State.statusWord]

/-- Settles O9, field by field. -/
theorem statusWordFields : Obligations.StatusWordFields := by
  unfold Obligations.StatusWordFields
  intro s hstep hindex
  refine ⟨?_, statusWord_txLine s, ?_, statusWord_syncAttached s, ?_, ?_, ?_, statusWord_reserved s⟩
  · rw [statusWord_txState]
    cases s.tx.state <;> rfl
  · rw [statusWord_rxState]
    cases s.rcv.rx.state <;> rfl
  · rw [statusWord_syncState]
    cases s.rcv.sy.state <;> rfl
  · rw [statusWord_txStep, BitVec.toNat_ofNat, Nat.mod_eq_of_lt hstep]
  · rw [statusWord_rxBitIndex, BitVec.toNat_ofNat, Nat.mod_eq_of_lt hindex]

theorem txState_code_eq_zero_iff (x : TxState) : x.code = 0#3 ↔ x = .idle := by cases x <;> decide

/-- Settles O15: an accepted TX_SEND is answered by the session's state, which `STATUS[2:0]` shows. -/
theorem busyExactlyWhenStatusShowsASession : Obligations.BusyExactlyWhenStatusShowsASession := by
  unfold Obligations.BusyExactlyWhenStatusShowsASession
  intro s t payload len crc h
  rw [statusWord_txState, Ne, txState_code_eq_zero_iff]
  by_cases hlen : len.toNat ≤ maxPayload
  · by_cases hidle : s.tx.state = .idle
    · rw [exec_txSend_accepted s hlen hidle] at h
      cases h
      simp [hidle]
    · rw [exec_txSend_busy s hlen hidle] at h
      cases h
      simp [hidle]
  · rw [exec_txSend_refused s (Nat.not_le.mp hlen)] at h
    cases h

/-! ## Elaboration (00_scope.md R13) -/

theorem wellFormed_iff (p : Params) : p.wellFormed = true ↔
    3 ≤ p.n ∧ 2 * p.st < p.n - 2 ∧ p.n ≤ p.nominalBitPeriodUs ∧ p.nominalBitPeriodUs < 2 ^ 32 ∧
      2 ≤ p.k ∧ p.k ≤ 36 ∧ 1 ≤ p.sl ∧ p.sl ≤ p.sh ∧ 2 ≤ p.syncLength ∧ p.syncLength % 2 = 0 ∧
      p.n ≤ p.rateLo ∧ p.rateLo ≤ p.rateHi ∧ p.rateHi < 2 ^ 32 ∧ (p.m = 1 ∨ p.m = 2) := by
  have hst : 2 * p.st + 2 < p.n ↔ 2 * p.st < p.n - 2 := by omega
  simp only [Params.wellFormed, Bool.and_eq_true, Bool.or_eq_true, decide_eq_true_eq, and_assoc, hst]

theorem elaborate_of_wellFormed {p : Params} (h : p.wellFormed = true) :
    p.elaborate.map (fun c => c.params) = some p := by
  simp [Params.elaborate, h]

theorem elaborate_of_not_wellFormed {p : Params} (h : ¬ p.wellFormed = true) : p.elaborate = none := dif_neg h

/-- Settles O10: elaboration succeeds exactly on the well-formed parameters and keeps them. -/
theorem elaboratesExactlyTheWellFormedParameters : Obligations.ElaboratesExactlyTheWellFormedParameters := by
  unfold Obligations.ElaboratesExactlyTheWellFormedParameters
  intro p
  rw [← wellFormed_iff]
  by_cases h : p.wellFormed = true
  · simp [elaborate_of_wellFormed h, h]
  · simp [elaborate_of_not_wellFormed h, h]

/-! ## Power-on and RESET (10_state.md R54, 70_reset_and_hazards.md R400, R401) -/

/-- A block at its reset values shows a status word of 0. -/
theorem statusWord_of_reset {s : State} (htx : s.tx = .reset) (hrcv : s.rcv = .reset) : s.statusWord = 0#32 := by
  rw [State.statusWord, htx, hrcv]
  decide

/-- Settles O52. -/
theorem powerOnValues : Obligations.PowerOnValues := by
  unfold Obligations.PowerOnValues
  exact ⟨fun c => ⟨rfl, rfl, rfl, rfl, rfl, statusWord_of_reset rfl rfl, rfl, rfl, rfl⟩, Config.tc1, rfl⟩

/-- Settles O53. -/
theorem resetRestoresEveryField : Obligations.ResetRestoresEveryField := by
  unfold Obligations.ResetRestoresEveryField
  exact fun s => ⟨_, exec_reset s, rfl, statusWord_of_reset rfl rfl⟩

end Sys2Proof.Machine
end

section
/-! What one command emits (60_exceptions.md R351, R355; 10_state.md R31): the events of each side, the five kinds of
RX_SAMPLE, and what the collaborators make of them; from these, that TX and RX commands commute. -/

namespace Sys2Proof.Machine

/-! ## The events of each side (30_encoding.md R120) -/

/-- The events of the Transmitter Framer. -/
def Event.ofTx : Event → Bool
  | .setSignal _ => true
  | .txSetOneShot _ => true
  | .txSetRecurring _ => true
  | .txCancelTrigger => true
  | .txComplete => true
  | .rxSetRecurring _ => false
  | .rxCancelTrigger => false
  | .rxMessage _ _ _ => false
  | .rxSynchronized _ => false
  | .fault _ => false

/-- The collaborators of the receiver side are not asked by a TX event. -/
theorem observe_rxTrigger {e : Event} (h : e.ofTx = true) (a : Agents) : (a.observe e).rxTrigger = a.rxTrigger := by
  cases e with
  | setSignal | txSetOneShot | txSetRecurring | txCancelTrigger | txComplete => rfl
  | rxSetRecurring | rxCancelTrigger | rxMessage | rxSynchronized | fault => cases h

/-- The collaborators of the transmitter are not asked by an RX event. -/
theorem observe_txTrigger_line {e : Event} (h : e.ofTx = false) (a : Agents) :
    (a.observe e).txTrigger = a.txTrigger ∧ (a.observe e).line = a.line := by
  cases e with
  | setSignal | txSetOneShot | txSetRecurring | txCancelTrigger | txComplete => cases h
  | rxSetRecurring | rxCancelTrigger | rxMessage | rxSynchronized | fault => exact ⟨rfl, rfl⟩

theorem observeAll_rxTrigger {es : List Event} (h : ∀ e ∈ es, e.ofTx = true) (a : Agents) :
    (a.observeAll es).rxTrigger = a.rxTrigger := by
  induction es generalizing a with
  | nil => rfl
  | cons e es ih =>
    obtain ⟨he, hes⟩ := List.forall_mem_cons.mp h
    rw [observeAll_cons, ih hes, observe_rxTrigger he]

theorem observeAll_txTrigger_line {es : List Event} (h : ∀ e ∈ es, e.ofTx = false) (a : Agents) :
    (a.observeAll es).txTrigger = a.txTrigger ∧ (a.observeAll es).line = a.line := by
  induction es generalizing a with
  | nil => exact ⟨rfl, rfl⟩
  | cons e es ih =>
    obtain ⟨he, hes⟩ := List.forall_mem_cons.mp h
    obtain ⟨htrigger, hline⟩ := observe_txTrigger_line he a
    rw [observeAll_cons, (ih hes _).1, (ih hes _).2]
    exact ⟨htrigger, hline⟩

/-- What the transmitter's collaborators hold after some events depends on what they held and on no other part. -/
theorem observeAll_tx_congr {a a' : Agents} (htrigger : a.txTrigger = a'.txTrigger) (hline : a.line = a'.line)
    (es : List Event) :
    (a.observeAll es).txTrigger = (a'.observeAll es).txTrigger ∧ (a.observeAll es).line = (a'.observeAll es).line := by
  induction es generalizing a a' with
  | nil => exact ⟨htrigger, hline⟩
  | cons e es ih =>
    rw [observeAll_cons, observeAll_cons]
    refine ih ?_ ?_ <;> cases e <;> simp [Agents.observe, htrigger, hline]

/-- What the RX trigger holds after some events depends on what it held and on no other part. -/
theorem observeAll_rx_congr {a a' : Agents} (h : a.rxTrigger = a'.rxTrigger) (es : List Event) :
    (a.observeAll es).rxTrigger = (a'.observeAll es).rxTrigger := by
  induction es generalizing a a' with
  | nil => exact h
  | cons e es ih =>
    rw [observeAll_cons, observeAll_cons]
    refine ih ?_
    cases e <;> simp [Agents.observe, h]

/-! ## The transmitter's events -/

section
variable (c : Config) (t : TxSession)

theorem armRecurring_ofTx : ∀ e ∈ t.armRecurring c, e.ofTx = true := by
  unfold TxSession.armRecurring
  split_ifs <;> simp [Event.ofTx]

theorem exitTransition_ofTx : ∀ e ∈ t.exitTransition.2, e.ofTx = true := by
  unfold TxSession.exitTransition
  cases t.state with
  | length => dsimp only; split_ifs <;> simp
  | crc => simp [Event.ofTx]
  | idle | wakeup | syncPreamble | startMarker | payload => simp

theorem fieldStep_ofTx : ∀ e ∈ (t.fieldStep c).2, e.ofTx = true := by
  have harm := armRecurring_ofTx c t
  simp only [TxSession.fieldStep]
  split_ifs
  · rw [List.forall_mem_cons, List.forall_mem_append]
    exact ⟨rfl, harm, exitTransition_ofTx _⟩
  · exact List.forall_mem_cons.mpr ⟨rfl, harm⟩

theorem tick_ofTx : ∀ e ∈ (t.tick c).2, e.ofTx = true := by
  by_cases hidle : t.state = .idle
  · simp [tick_idle c hidle]
  · by_cases hwakeup : t.state = .wakeup
    · simp [tick_wakeup c hwakeup, TxSession.wakeupStep, Event.ofTx]
    · rw [tick_field c hidle hwakeup]
      exact fieldStep_ofTx c t

theorem cancel_ofTx : ∀ e ∈ t.cancel.2, e.ofTx = true := by
  unfold TxSession.cancel
  split_ifs <;> simp [Event.ofTx]

theorem length_armRecurring_le : (t.armRecurring c).length ≤ 1 := by
  unfold TxSession.armRecurring
  split_ifs <;> simp

theorem length_exitTransition_le : t.exitTransition.2.length ≤ 2 := by
  unfold TxSession.exitTransition
  cases t.state with
  | length => dsimp only; split_ifs <;> simp
  | idle | wakeup | syncPreamble | startMarker | payload | crc => simp

/-- The request of the first preamble bit and the events of an exit never come in one sub-step. -/
theorem length_fieldStep_le : (t.fieldStep c).2.length ≤ 3 := by
  simp only [TxSession.fieldStep]
  split_ifs with hlast
  · have hnotFirst : ¬(t.state = .syncPreamble ∧ t.stepIndex = preambleLen) := by
      rintro ⟨-, hfirst⟩
      rw [hfirst] at hlast
      exact absurd hlast (by decide)
    have hexit := length_exitTransition_le
      (({ t with stepIndex := t.stepIndex - 1 } : TxSession).drive (t.fieldBit (t.stepIndex - 1)))
    rw [armRecurring_nil c hnotFirst, List.nil_append, List.length_cons]
    omega
  · have harm := length_armRecurring_le c t
    rw [List.length_cons]
    omega

theorem length_tick_le : (t.tick c).2.length ≤ 3 := by
  by_cases hidle : t.state = .idle
  · simp [tick_idle c hidle]
  · by_cases hwakeup : t.state = .wakeup
    · simp [tick_wakeup c hwakeup, TxSession.wakeupStep]
    · rw [tick_field c hidle hwakeup]
      exact length_fieldStep_le c t

theorem length_cancel_le : t.cancel.2.length ≤ 3 := by
  unfold TxSession.cancel
  split_ifs <;> simp

end

/-! ## Everything a recovered bit can do (42_receive_framer.md R260 to R268) -/

section
variable (c : Config) (r : Receiver) (b : Bool)

inductive Receiver.BitStep : Prop where
  | ignored (h : r.framerBit c b = (r, []))
  | waitMatch (hstate : r.rx.state = .waitStart)
      (h : r.framerBit c b = ({ r with rx := { r.rx with state := .readLength, buffer := 0#64, bitIndex := 0 } }, []))
  | waitMore (hstate : r.rx.state = .waitStart) (hindex : r.rx.bitIndex < 48)
      (h : r.framerBit c b = ({ r with rx := r.rx.take 12 b }, []))
  | lengthMore (hstate : r.rx.state = .readLength) (hindex : r.rx.bitIndex + 1 ≠ 7)
      (h : r.framerBit c b = ({ r with rx := r.rx.take 64 b }, []))
  | lengthZero (hstate : r.rx.state = .readLength)
      (h : r.framerBit c b = ({ r with rx := { r.rx with state := .readCrc, length := 0#7, payload := 0#64,
                                                         buffer := 0#64, bitIndex := 0 } }, []))
  | lengthStores (hstate : r.rx.state = .readLength) (hpos : 1 ≤ (shiftIn 64 r.rx.buffer b).toNat)
      (hle : (shiftIn 64 r.rx.buffer b).toNat ≤ 64)
      (h : r.framerBit c b = ({ r with rx := { r.rx with state := .readPayload,
                                                         length := (shiftIn 64 r.rx.buffer b).setWidth 7,
                                                         buffer := 0#64, bitIndex := 0 } }, []))
  | payloadMore (hstate : r.rx.state = .readPayload) (hindex : r.rx.bitIndex + 1 ≠ r.rx.length.toNat)
      (h : r.framerBit c b = ({ r with rx := r.rx.take 64 b }, []))
  | payloadDone (hstate : r.rx.state = .readPayload) (hindex : r.rx.bitIndex + 1 = r.rx.length.toNat)
      (h : r.framerBit c b = ({ r with rx := { r.rx with state := .readCrc, payload := shiftIn 64 r.rx.buffer b,
                                                         buffer := 0#64, bitIndex := 0 } }, []))
  | crcMore (hstate : r.rx.state = .readCrc) (hindex : r.rx.bitIndex + 1 ≠ 16)
      (h : r.framerBit c b = ({ r with rx := r.rx.take 16 b }, []))
  | fault (code : FaultCode)
      (h : r.framerBit c b = (.freshHunt c r.rx.syncAttached,
        [.fault code, .rxCancelTrigger, .rxSetRecurring (nominalSampleUs c)]))
  | message (hstate : r.rx.state = .readCrc) (hindex : r.rx.bitIndex + 1 = 16)
      (h : r.framerBit c b = (.freshHunt c r.rx.syncAttached,
        [.rxMessage r.rx.payload r.rx.length ((shiftIn 16 r.rx.buffer b).setWidth 16), .rxCancelTrigger,
          .rxSetRecurring (nominalSampleUs c)]))

theorem framerBit_step : r.BitStep c b := by
  cases hstate : r.rx.state with
  | stopped | syncHunt => exact .ignored (by simp [Receiver.framerBit, hstate])
  | waitStart =>
    have hbit := framerBit_waitStart (b := b) c hstate
    by_cases hmatch : shiftInNat 12 r.rx.buffer.toNat b = 0xA39
    · exact .waitMatch hstate (hbit.trans (waitStartBit_match c hmatch))
    · by_cases hmore : r.rx.bitIndex < 48
      · exact .waitMore hstate hmore (hbit.trans (waitStartBit_more c hmatch hmore))
      · exact .fault .syncLost (hbit.trans (waitStartBit_lost c hmatch (Nat.not_lt.mp hmore)))
  | readLength =>
    have hbit := framerBit_readLength (b := b) c hstate
    by_cases hlast : r.rx.bitIndex + 1 = 7
    · by_cases hover : 64 < (shiftIn 64 r.rx.buffer b).toNat
      · exact .fault .frameInvalid (hbit.trans (readLengthBit_over c hlast hover))
      · by_cases hzero : (shiftIn 64 r.rx.buffer b).toNat = 0
        · exact .lengthZero hstate (hbit.trans (readLengthBit_zero c hlast hzero))
        · have hpos := Nat.one_le_iff_ne_zero.mpr hzero
          have hle := Nat.not_lt.mp hover
          exact .lengthStores hstate hpos hle (hbit.trans (readLengthBit_stores c hlast hpos hle))
    · exact .lengthMore hstate hlast (hbit.trans (readLengthBit_more c hlast))
  | readPayload =>
    have hbit := framerBit_readPayload (b := b) c hstate
    by_cases hlast : r.rx.bitIndex + 1 = r.rx.length.toNat
    · exact .payloadDone hstate hlast (hbit.trans (readPayloadBit_done hlast))
    · exact .payloadMore hstate hlast (hbit.trans (readPayloadBit_more hlast))
  | readCrc =>
    have hbit := framerBit_readCrc (b := b) c hstate
    by_cases hlast : r.rx.bitIndex + 1 = 16
    · exact .message hstate hlast (hbit.trans (readCrcBit_done c hlast))
    · exact .crcMore hstate hlast (hbit.trans (readCrcBit_more c hlast))

end

/-! ## The five kinds of RX_SAMPLE -/

section
variable (c : Config) (r : Receiver) (level : Level) (ts : Micros)

/-- How an RX_SAMPLE ends: without an event, or with one of the four reports of the receiver side (60_exceptions.md R352,
42_receive_framer.md R257, R268), each with all the receiver side becomes. -/
inductive Receiver.SampleKind : Prop where
  | quiet (h : (r.sample c level ts).2 = [])
  | sessionFault (code : FaultCode) (h : r.sample c level ts = ({ r with sy := .reset }, [.fault code]))
  | locked (y : SyncSession) (period : Micros) (hsession : r.sy.sample c level ts = (y, .done period))
      (h : r.sample c level ts = (r.locked y level (micros (period.toNat / c.params.n)),
        [.rxSynchronized period, .rxSetRecurring (micros (period.toNat / c.params.n))]))
  | frameFault (code : FaultCode)
      (h : r.sample c level ts = (.freshHunt c r.rx.syncAttached,
        [.fault code, .rxCancelTrigger, .rxSetRecurring (nominalSampleUs c)]))
  | message (b : Bool) (hstate : r.rx.state = .readCrc) (hbit : (r.dm.sample c level).2 = .bit b)
      (hindex : r.rx.bitIndex + 1 = 16)
      (h : r.sample c level ts = (.freshHunt c r.rx.syncAttached,
        [.rxMessage r.rx.payload r.rx.length ((shiftIn 16 r.rx.buffer b).setWidth 16), .rxCancelTrigger,
          .rxSetRecurring (nominalSampleUs c)]))

theorem hunt_kind (hstate : r.rx.state = .syncHunt) : r.SampleKind c level ts := by
  cases hattached : r.rx.syncAttached with
  | false => exact .quiet (by rw [sample_static c hstate hattached, staticCorrelate_events])
  | true =>
    have hdynamic := sample_dynamic (level := level) (ts := ts) c hstate hattached
    cases hsession : r.sy.sample c level ts with
    | mk y result =>
      cases result with
      | none => exact .quiet (by rw [hdynamic, dynamicHunt_of_none c hsession])
      | fault code =>
        have hreset := syncSample_eq_of_fault (code := code) (congrArg Prod.snd hsession)
        exact .sessionFault code (hdynamic.trans (dynamicHunt_of_fault c hreset))
      | done period => exact .locked y period hsession (hdynamic.trans (dynamicHunt_of_done c hsession))

theorem frame_kind (hframe : r.rx.state.inFrame = true) : r.SampleKind c level ts := by
  have hsample := sample_frame c hframe level ts
  cases hverdict : r.dm.sample c level with
  | mk d verdict =>
    cases verdict with
    | none => exact .quiet (by rw [hsample, frameSample_of_none c hverdict])
    | fault => exact .frameFault .sampling (hsample.trans (frameSample_of_fault c hverdict))
    | bit b =>
      have hbit : r.sample c level ts = Receiver.framerBit c { r with dm := d } b :=
        hsample.trans (frameSample_of_bit c hverdict)
      cases framerBit_step c { r with dm := d } b with
      | ignored h | waitMatch _ h | waitMore _ _ h | lengthMore _ _ h | lengthZero _ h | lengthStores _ _ _ h
      | payloadMore _ _ h | payloadDone _ _ h | crcMore _ _ h => exact .quiet (by rw [hbit, h])
      | fault code h => exact .frameFault code (hbit.trans h)
      | message hstate hindex h => exact .message b hstate (by rw [hverdict]) hindex (hbit.trans h)

theorem sample_kind : r.SampleKind c level ts := by
  cases hstate : r.rx.state with
  | stopped => exact .quiet (by rw [sample_stopped c hstate])
  | syncHunt => exact hunt_kind c r level ts hstate
  | waitStart | readLength | readPayload | readCrc => exact frame_kind c r level ts (by rw [hstate]; rfl)

/-- An RX_SAMPLE emits RX events, three at most, of which the first alone may be a fault. -/
theorem sample_events :
    (∀ e ∈ (r.sample c level ts).2, e.ofTx = false) ∧ (r.sample c level ts).2.length ≤ 3 ∧
      ∀ e ∈ (r.sample c level ts).2.tail, e.isFault = false := by
  cases sample_kind c r level ts with
  | quiet h | sessionFault _ h | locked _ _ _ h | frameFault _ h | message _ _ _ _ h =>
    simp [h, Event.ofTx, Event.isFault]

theorem start_events : (r.start c).2 = [] ∨ (r.start c).2 = [.rxSetRecurring (nominalSampleUs c)] := by
  by_cases h : r.rx.state = .stopped
  · exact .inr (by rw [start_of_stopped c h])
  · exact .inl (by rw [start_of_not_stopped c h])

theorem stop_events : r.stop.2 = [] ∨ r.stop.2 = [.rxCancelTrigger] := by
  by_cases h : r.rx.state = .stopped
  · exact .inl (by rw [stop_of_stopped h])
  · exact .inr (by rw [stop_of_not_stopped h])

end

/-! ## The events of every command -/

variable {i : Instr} {s s' : State}

theorem exec_events_of_isTx (hi : i.isTx = true) (h : exec i s = .next s') :
    (∀ e ∈ s'.events, e.ofTx = true) ∧ s'.events.length ≤ 3 := by
  cases i with
  | txSend payload len crc =>
    by_cases hlen : len.toNat ≤ maxPayload
    · by_cases hidle : s.tx.state = .idle
      · rw [exec_txSend_accepted s hlen hidle] at h
        cases h
        exact ⟨tick_ofTx _ _, length_tick_le _ _⟩
      · rw [exec_txSend_busy s hlen hidle] at h
        cases h
        simp
    · rw [exec_txSend_refused s (Nat.not_le.mp hlen)] at h
      cases h
  | txTick =>
    cases h
    exact ⟨tick_ofTx _ _, length_tick_le _ _⟩
  | txCancel =>
    cases h
    exact ⟨cancel_ofTx _, length_cancel_le _⟩
  | reset | rxStart | rxStop | rxSample | rxAttachSync | rxDetachSync => cases hi

theorem exec_events_of_isRx (hi : i.isRx = true) (h : exec i s = .next s') :
    (∀ e ∈ s'.events, e.ofTx = false) ∧ s'.events.length ≤ 3 ∧ ∀ e ∈ s'.events.tail, e.isFault = false := by
  cases i with
  | rxStart =>
    cases h
    obtain hes | hes := start_events s.cfg s.rcv <;> simp [hes, Event.ofTx]
  | rxStop =>
    cases h
    obtain hes | hes := stop_events s.rcv <;> simp [hes, Event.ofTx]
  | rxSample lvl ts =>
    cases h
    exact sample_events s.cfg s.rcv lvl ts
  | rxAttachSync | rxDetachSync =>
    cases h
    simp
  | reset | txSend | txTick | txCancel => cases hi

theorem isFault_of_ofTx {e : Event} (h : e.ofTx = true) : e.isFault = false := by
  cases e with
  | fault => cases h
  | setSignal | txSetOneShot | txSetRecurring | txCancelTrigger | txComplete | rxSetRecurring | rxCancelTrigger
  | rxMessage | rxSynchronized => rfl

/-- Settles O57: the transmitter and RESET report no fault, and each kind of RX_SAMPLE puts its fault first; of the other
receiver commands none reports one. -/
theorem atMostOneFaultAndItComesFirst : Obligations.AtMostOneFaultAndItComesFirst := by
  unfold Obligations.AtMostOneFaultAndItComesFirst
  intro i s t h
  cases i with
  | reset =>
    cases h
    simp [resetEvents, Event.isFault]
  | txSend | txTick | txCancel =>
    obtain ⟨htx, hlength⟩ := exec_events_of_isTx rfl h
    refine ⟨hlength, fun e he => isFault_of_ofTx (htx e (List.mem_of_mem_tail he)), ?_⟩
    rintro ⟨e, he, hfault⟩
    simp [isFault_of_ofTx (htx e he)] at hfault
  | rxSample lvl ts =>
    obtain ⟨-, hlength, htail⟩ := exec_events_of_isRx rfl h
    exact ⟨hlength, htail, fun _ => ⟨lvl, ts, rfl⟩⟩
  | rxStart =>
    cases h
    obtain hes | hes := start_events s.cfg s.rcv <;> simp [hes, Event.isFault]
  | rxStop =>
    cases h
    obtain hes | hes := stop_events s.rcv <;> simp [hes, Event.isFault]
  | rxAttachSync | rxDetachSync =>
    cases h
    simp

/-! ## The collaborators after a step -/

/-- What the collaborators hold when a command has been taken: TX_TICK and RX_SAMPLE are firings of their triggers
(60_exceptions.md R361). -/
def Agents.firedBy (a : Agents) : Instr → Agents
  | .txTick => { a with txTrigger := a.txTrigger.fire }
  | .rxSample _ _ => { a with rxTrigger := a.rxTrigger.fire }
  | _ => a

theorem exec_agents (h : exec i s = .next s') : s'.agents = (s.agents.firedBy i).observeAll s'.events := by
  cases i with
  | txSend payload len crc =>
    by_cases hlen : len.toNat ≤ maxPayload
    · by_cases hidle : s.tx.state = .idle
      · rw [exec_txSend_accepted s hlen hidle] at h
        cases h
        rfl
      · rw [exec_txSend_busy s hlen hidle] at h
        cases h
        rfl
    · rw [exec_txSend_refused s (Nat.not_le.mp hlen)] at h
      cases h
  | reset | txTick | txCancel | rxStart | rxStop | rxSample | rxAttachSync | rxDetachSync =>
    cases h
    rfl

theorem exec_cfg_inbox (h : exec i s = .next s') : s'.cfg = s.cfg ∧ s'.inbox = s.inbox := by
  cases i with
  | txSend payload len crc =>
    by_cases hlen : len.toNat ≤ maxPayload
    · by_cases hidle : s.tx.state = .idle
      · rw [exec_txSend_accepted s hlen hidle] at h
        cases h
        exact ⟨rfl, rfl⟩
      · rw [exec_txSend_busy s hlen hidle] at h
        cases h
        exact ⟨rfl, rfl⟩
    · rw [exec_txSend_refused s (Nat.not_le.mp hlen)] at h
      cases h
  | reset | txTick | txCancel | rxStart | rxStop | rxSample | rxAttachSync | rxDetachSync =>
    cases h
    exact ⟨rfl, rfl⟩

/-! ## TX and RX commands commute (70_reset_and_hazards.md R423) -/

/-- The transmitter and what its collaborators hold. -/
def State.txPart (s : State) : TxSession × Trigger × Option Level := (s.tx, s.agents.txTrigger, s.agents.line)

/-- The receiver side and what its collaborator holds. -/
def State.rxPart (s : State) : Receiver × Trigger := (s.rcv, s.agents.rxTrigger)

theorem agents_eq {a a' : Agents} (htx : a.txTrigger = a'.txTrigger) (hrx : a.rxTrigger = a'.rxTrigger)
    (hline : a.line = a'.line) : a = a' := by
  cases a
  cases a'
  simp_all

theorem firedBy_of_isTx (hi : i.isTx = true) (a : Agents) : (a.firedBy i).rxTrigger = a.rxTrigger := by
  cases i with
  | txSend | txTick | txCancel => rfl
  | reset | rxStart | rxStop | rxSample | rxAttachSync | rxDetachSync => cases hi

theorem firedBy_of_isRx (hi : i.isRx = true) (a : Agents) :
    (a.firedBy i).txTrigger = a.txTrigger ∧ (a.firedBy i).line = a.line := by
  cases i with
  | rxStart | rxStop | rxSample | rxAttachSync | rxDetachSync => exact ⟨rfl, rfl⟩
  | reset | txSend | txTick | txCancel => cases hi

theorem firedBy_tx_congr (i : Instr) {a a' : Agents} (htrigger : a.txTrigger = a'.txTrigger)
    (hline : a.line = a'.line) :
    (a.firedBy i).txTrigger = (a'.firedBy i).txTrigger ∧ (a.firedBy i).line = (a'.firedBy i).line := by
  cases i <;> simp [Agents.firedBy, htrigger, hline]

theorem firedBy_rx_congr (i : Instr) {a a' : Agents} (h : a.rxTrigger = a'.rxTrigger) :
    (a.firedBy i).rxTrigger = (a'.firedBy i).rxTrigger := by
  cases i <;> simp [Agents.firedBy, h]

/-- A TX command leaves the receiver's part of the machine as it was. -/
theorem exec_rxPart_of_isTx (hi : i.isTx = true) (h : exec i s = .next s') : s'.rxPart = s.rxPart := by
  obtain ⟨-, -, -, hrcv, -⟩ := (actsWithin_tx_of_isTx hi).two_runs h h rfl rfl
  rw [State.rxPart, State.rxPart, hrcv, exec_agents h, observeAll_rxTrigger (exec_events_of_isTx hi h).1,
    firedBy_of_isTx hi]

/-- An RX command leaves the transmitter's part of the machine as it was. -/
theorem exec_txPart_of_isRx (hi : i.isRx = true) (h : exec i s = .next s') : s'.txPart = s.txPart := by
  obtain ⟨-, -, -, htx, -⟩ := (actsWithin_rcv_of_isRx hi).two_runs h h rfl rfl
  obtain ⟨htrigger, hline⟩ := observeAll_txTrigger_line (exec_events_of_isRx hi h).1 (s.agents.firedBy i)
  obtain ⟨hfired, hfiredLine⟩ := firedBy_of_isRx hi s.agents
  rw [State.txPart, State.txPart, htx, exec_agents h, htrigger, hline, hfired, hfiredLine]

variable {u u' : State}

/-- What a TX command makes of the transmitter's part depends on that part alone. -/
theorem exec_txPart_congr (hi : i.isTx = true) (hs : exec i s = .next s') (hu : exec i u = .next u')
    (hcfg : s.cfg = u.cfg) (h : s.txPart = u.txPart) : s'.txPart = u'.txPart := by
  obtain ⟨htx, htrigger, hline⟩ : s.tx = u.tx ∧ s.agents.txTrigger = u.agents.txTrigger ∧ s.agents.line = u.agents.line := by
    simpa [State.txPart] using h
  obtain ⟨htx', hevents, -⟩ := (actsWithin_tx_of_isTx hi).two_runs hs hu hcfg htx
  obtain ⟨hfired, hfiredLine⟩ := firedBy_tx_congr i htrigger hline
  obtain ⟨htrigger', hline'⟩ := observeAll_tx_congr hfired hfiredLine s'.events
  rw [State.txPart, State.txPart, htx', exec_agents hs, exec_agents hu, ← hevents, htrigger', hline']

/-- What an RX command makes of the receiver's part depends on that part alone. -/
theorem exec_rxPart_congr (hi : i.isRx = true) (hs : exec i s = .next s') (hu : exec i u = .next u')
    (hcfg : s.cfg = u.cfg) (h : s.rxPart = u.rxPart) : s'.rxPart = u'.rxPart := by
  obtain ⟨hrcv, htrigger⟩ : s.rcv = u.rcv ∧ s.agents.rxTrigger = u.agents.rxTrigger := by
    simpa [State.rxPart] using h
  obtain ⟨hrcv', hevents, -⟩ := (actsWithin_rcv_of_isRx hi).two_runs hs hu hcfg hrcv
  have htrigger' := observeAll_rx_congr (firedBy_rx_congr i htrigger) s'.events
  rw [State.rxPart, State.rxPart, hrcv', exec_agents hs, exec_agents hu, ← hevents, htrigger']

/-- Settles O12: whether a command completes, and its response, are read off the command and the session's state. -/
theorem everyWellFormedCommandCompletes : Obligations.EveryWellFormedCommandCompletes := by
  unfold Obligations.EveryWellFormedCommandCompletes
  intro i s hwf
  cases i with
  | txSend payload len crc =>
    have hlen : len.toNat ≤ maxPayload := sendLengthOk_iff.mp hwf
    by_cases hidle : s.tx.state = .idle
    · exact ⟨_, exec_txSend_accepted s hlen hidle payload crc, rfl, rfl, rfl, fun h => absurd hidle h.2,
        fun _ => ⟨rfl, rfl⟩⟩
    · exact ⟨_, exec_txSend_busy s hlen hidle payload crc, rfl, rfl, rfl, fun _ => ⟨rfl, rfl⟩,
        fun h => absurd ⟨⟨payload, len, crc, rfl⟩, hidle⟩ h⟩
  | reset | txTick | txCancel | rxStart | rxStop | rxSample | rxAttachSync | rxDetachSync =>
    exact ⟨_, rfl, rfl, rfl, rfl, fun h => by simp at h, fun _ => ⟨rfl, rfl⟩⟩

theorem exec_completes (hwf : i.wellFormed = true) (s : State) : ∃ s', exec i s = .next s' := by
  obtain ⟨s', hs', -⟩ := everyWellFormedCommandCompletes i s hwf
  exact ⟨s', hs'⟩

theorem wellFormed_of_isRx (hi : i.isRx = true) : i.wellFormed = true := by
  cases i with
  | rxStart | rxStop | rxSample | rxAttachSync | rxDetachSync => rfl
  | reset | txSend | txTick | txCancel => cases hi

/-- Settles O55: each command changes its own part of the machine by a function of that part, and the two parts with the
configuration are all that is compared. -/
theorem txAndRxCommandsCommute : Obligations.TxAndRxCommandsCommute := by
  unfold Obligations.TxAndRxCommandsCommute
  intro i j s hi hj hwf
  obtain ⟨a, ha⟩ := exec_completes hwf s
  obtain ⟨x, hx⟩ := exec_completes (wellFormed_of_isRx hj) a
  obtain ⟨b, hb⟩ := exec_completes (wellFormed_of_isRx hj) s
  obtain ⟨y, hy⟩ := exec_completes hwf b
  have hacfg := (exec_cfg_inbox ha).1
  have hbcfg := (exec_cfg_inbox hb).1
  have htx : x.txPart = y.txPart :=
    (exec_txPart_of_isRx hj hx).trans (exec_txPart_congr hi ha hy hbcfg.symm (exec_txPart_of_isRx hj hb).symm)
  have hrx : x.rxPart = y.rxPart :=
    (exec_rxPart_congr hj hx hb hacfg (exec_rxPart_of_isTx hi ha)).trans (exec_rxPart_of_isTx hi hy).symm
  simp only [State.txPart, State.rxPart, Prod.mk.injEq] at htx hrx
  obtain ⟨htx, htxTrigger, hline⟩ := htx
  obtain ⟨hrcv, hrxTrigger⟩ := hrx
  refine ⟨a, b, x, y, ha, hx, hb, hy, htx, hrcv, ?_, ?_⟩
  · exact agents_eq htxTrigger hrxTrigger hline
  · rw [(exec_cfg_inbox hx).1, hacfg, (exec_cfg_inbox hy).1, hbcfg]

end Sys2Proof.Machine
end

section
/-! The invariant over a step of the transmitter (10_state.md R35 to R37, 40_transmit_framer.md R170): the ranges of the
session, and what its collaborators hold of its requests. -/

namespace Sys2Proof.Machine

/-- The transmitter's half of `State.AgentsInv`: what the collaborators `a` hold for the session `t`. -/
structure TxSession.Served (c : Config) (t : TxSession) (a : Agents) : Prop where
  idle : t.state = .idle → a.txTrigger = .idle
  wakeup : t.state = .wakeup ∨ (t.state = .syncPreamble ∧ t.stepIndex = preambleLen) →
    a.txTrigger = .oneShot wakeupHalfUs
  field : t.state ≠ .idle → t.state ≠ .wakeup → ¬(t.state = .syncPreamble ∧ t.stepIndex = preambleLen) →
    a.txTrigger = .recurring (nominalBitUs c)
  line : t.state ≠ .idle → a.line = some t.line

/-- The session `t` is in its ranges and served by the collaborators `a`. -/
def TxSession.Good (c : Config) (t : TxSession) (a : Agents) : Prop := t.Inv ∧ t.Served c a

variable {c : Config} {t : TxSession} {a : Agents}

/-! ## The sessions a step can leave -/

/-- An idle session asks for nothing. -/
theorem txGood_idle (hlength : t.length.toNat ≤ maxPayload) (hstate : t.state = .idle) (hstep : t.stepIndex = 0)
    (htrigger : a.txTrigger = .idle) : t.Good c a := by
  refine ⟨⟨hlength, fun _ => hstep, ?_, ?_, ?_⟩, ⟨fun _ => htrigger, ?_, ?_, ?_⟩⟩ <;> simp [hstate, hstep]

/-- A session between its wakeup halves has asked for the second. -/
theorem txGood_wakeup (hlength : t.length.toNat ≤ maxPayload) (hstate : t.state = .wakeup) (hstep : t.stepIndex = 1)
    (htrigger : a.txTrigger = .oneShot wakeupHalfUs) (hline : a.line = some t.line) : t.Good c a := by
  refine ⟨⟨hlength, ?_, fun _ => hstep, ?_, ?_⟩, ⟨?_, fun _ => htrigger, ?_, fun _ => hline⟩⟩ <;>
    simp [hstate, hstep, TxSession.fieldWidth]

/-- A session before the first preamble bit has asked for one more half-period. -/
theorem txGood_preambleEntry (hlength : t.length.toNat ≤ maxPayload) (hstate : t.state = .syncPreamble)
    (hstep : t.stepIndex = preambleLen) (htrigger : a.txTrigger = .oneShot wakeupHalfUs)
    (hline : a.line = some t.line) : t.Good c a := by
  refine ⟨⟨hlength, ?_, ?_, ?_, ?_⟩, ⟨?_, fun _ => htrigger, ?_, fun _ => hline⟩⟩ <;>
    simp [hstate, hstep, TxSession.fieldWidth, preambleLen]

/-- A session inside its fields has the recurring request. -/
theorem txGood_field (hlength : t.length.toNat ≤ maxPayload) (hidle : t.state ≠ .idle) (hwakeup : t.state ≠ .wakeup)
    (hnotFirst : ¬(t.state = .syncPreamble ∧ t.stepIndex = preambleLen)) (hpos : 1 ≤ t.stepIndex)
    (hwidth : t.stepIndex ≤ t.fieldWidth) (htrigger : a.txTrigger = .recurring (nominalBitUs c))
    (hline : a.line = some t.line) : t.Good c a :=
  ⟨⟨hlength, fun h => absurd h hidle, fun h => absurd h hwakeup, fun _ => hpos, hwidth⟩,
    ⟨fun h => absurd h hidle, fun h => (h.elim hwakeup hnotFirst).elim, fun _ _ _ => htrigger, fun _ => hline⟩⟩

/-! ## A sub-step keeps the session good -/

/-- The first preamble bit, or another bit that is not its field's last: the recurring request is there afterwards. -/
theorem txTrigger_after_bit (h : t.Good c a) (hidle : t.state ≠ .idle) (hwakeup : t.state ≠ .wakeup) (b : Bool) :
    ((({ a with txTrigger := a.txTrigger.fire, line := some b } : Agents).observeAll (t.armRecurring c))).txTrigger =
      .recurring (nominalBitUs c) ∧
    ((({ a with txTrigger := a.txTrigger.fire, line := some b } : Agents).observeAll (t.armRecurring c))).line =
      some b := by
  obtain ⟨-, hserved⟩ := h
  by_cases hfirst : t.state = .syncPreamble ∧ t.stepIndex = preambleLen
  · rw [armRecurring_first c hfirst.1 hfirst.2]
    exact ⟨rfl, rfl⟩
  · rw [armRecurring_nil c hfirst, hserved.field hidle hwakeup hfirst]
    exact ⟨rfl, rfl⟩

theorem txGood_within {k : Nat} (h : t.Good c a) (hidle : t.state ≠ .idle) (hwakeup : t.state ≠ .wakeup)
    (hstep : t.stepIndex = k + 2) :
    (t.tick c).1.Good c (({ a with txTrigger := a.txTrigger.fire } : Agents).observeAll (t.tick c).2) := by
  obtain ⟨htrigger, hline⟩ := txTrigger_after_bit h hidle hwakeup (t.fieldBit (k + 1))
  obtain ⟨hinv, -⟩ := h
  have hwidth := hinv.width
  rw [tick_within c hidle hwakeup hstep]
  refine txGood_field hinv.length hidle hwakeup ?_ (Nat.le_add_left 1 k) ?_ htrigger hline
  · rintro ⟨hstate, hfull⟩
    have hstate' : t.state = .syncPreamble := hstate
    have hfull' : k + 1 = 36 := hfull
    simp only [TxSession.fieldWidth, hstate', preambleLen] at hwidth
    omega
  · have hle : k + 1 ≤ t.fieldWidth := by omega
    exact hle

/-- The exit of a field enters the next one at its width, with the recurring request kept, or ends the session. -/
theorem txGood_exit {b : Bool} (hlength : t.length.toNat ≤ maxPayload) (hidle : t.state ≠ .idle)
    (hwakeup : t.state ≠ .wakeup) (htrigger : a.txTrigger = .recurring (nominalBitUs c))
    (hline : a.line = some b) (hb : t.line = b) :
    t.exitTransition.1.Good c (a.observeAll t.exitTransition.2) := by
  subst hb
  cases hstate : t.state with
  | idle => exact absurd hstate hidle
  | wakeup => exact absurd hstate hwakeup
  | syncPreamble =>
    rw [exitTransition_syncPreamble hstate]
    exact txGood_field hlength (by simp) (by simp) (by simp) (by simp) (by simp [TxSession.fieldWidth, markerLen])
      htrigger hline
  | startMarker =>
    rw [exitTransition_startMarker hstate]
    exact txGood_field hlength (by simp) (by simp) (by simp) (by simp) (by simp [TxSession.fieldWidth, lengthBits])
      htrigger hline
  | length =>
    by_cases hzero : t.length = 0#7
    · rw [exitTransition_length_zero hstate hzero]
      exact txGood_field hlength (by simp) (by simp) (by simp) (by simp) (by simp [TxSession.fieldWidth, crcBits])
        htrigger hline
    · have hpos : 1 ≤ t.length.toNat := Nat.one_le_iff_ne_zero.mpr fun h => hzero (BitVec.eq_of_toNat_eq h)
      rw [exitTransition_length hstate hzero]
      exact txGood_field hlength (by simp) (by simp) (by simp) (by simpa using hpos) (by simp [TxSession.fieldWidth])
        htrigger hline
  | payload =>
    rw [exitTransition_payload hstate]
    exact txGood_field hlength (by simp) (by simp) (by simp) (by simp) (by simp [TxSession.fieldWidth, crcBits])
      htrigger hline
  | crc =>
    rw [exitTransition_crc hstate]
    exact txGood_idle hlength rfl rfl rfl

theorem txGood_last (h : t.Good c a) (hidle : t.state ≠ .idle) (hwakeup : t.state ≠ .wakeup) (hstep : t.stepIndex = 1) :
    (t.tick c).1.Good c (({ a with txTrigger := a.txTrigger.fire } : Agents).observeAll (t.tick c).2) := by
  obtain ⟨hinv, hserved⟩ := h
  have htrigger := hserved.field hidle hwakeup (by simp [hstep, preambleLen])
  rw [tick_last c hidle hwakeup hstep, htrigger]
  exact txGood_exit (t := { t with stepIndex := 0, line := t.fieldBit 0 }) (b := t.fieldBit 0)
    (a := { a with txTrigger := .recurring (nominalBitUs c), line := some (t.fieldBit 0) })
    hinv.length hidle hwakeup rfl rfl rfl

/-- TX_TICK keeps the session good: the trigger fires, and the events of the sub-step are observed. -/
theorem txGood_tick (h : t.Good c a) :
    (t.tick c).1.Good c (({ a with txTrigger := a.txTrigger.fire } : Agents).observeAll (t.tick c).2) := by
  by_cases hidle : t.state = .idle
  · obtain ⟨hinv, hserved⟩ := h
    rw [tick_idle c hidle, hserved.idle hidle]
    exact txGood_idle hinv.length hidle (hinv.idle hidle) rfl
  · by_cases hwakeup : t.state = .wakeup
    · obtain ⟨hinv, -⟩ := h
      rw [tick_secondWakeup c hwakeup (hinv.wakeup hwakeup)]
      exact txGood_preambleEntry hinv.length rfl rfl rfl rfl
    · have hpos := h.1.counting hidle
      obtain hlast | ⟨k, hwithin⟩ : t.stepIndex = 1 ∨ ∃ k, t.stepIndex = k + 2 := by
        rcases hstep : t.stepIndex with _ | _ | k
        · omega
        · exact .inl rfl
        · exact .inr ⟨k, rfl⟩
      · exact txGood_last h hidle hwakeup hlast
      · exact txGood_within h hidle hwakeup hwithin

/-! ## The other commands of the transmitter -/

theorem txGood_openSession {payload : BitVec 64} {len : BitVec 7} {crc : BitVec 16} (hlen : len.toNat ≤ maxPayload) :
    ((t.openSession payload len crc).tick c).1.Good c (a.observeAll ((t.openSession payload len crc).tick c).2) := by
  rw [tick_openSession]
  exact txGood_wakeup hlen rfl rfl rfl rfl

theorem txGood_cancel (h : t.Good c a) : t.cancel.1.Good c (a.observeAll t.cancel.2) := by
  by_cases hidle : t.state = .idle
  · rw [cancel_idle hidle]
    exact h
  · rw [cancel_busy hidle]
    exact txGood_idle h.1.length rfl rfl rfl

theorem txGood_reset (h : a.txTrigger = .idle) : TxSession.Good c .reset a :=
  txGood_idle (by decide) rfl rfl h

/-- A TX command keeps the transmitter's half of the invariant. -/
theorem exec_keeps_tx {i : Instr} {s s' : State} (hi : i.isTx = true) (h : exec i s = .next s')
    (hgood : s.tx.Good s.cfg s.agents) : s'.tx.Good s'.cfg s'.agents := by
  cases i with
  | txSend payload len crc =>
    by_cases hlen : len.toNat ≤ maxPayload
    · by_cases hidle : s.tx.state = .idle
      · rw [exec_txSend_accepted s hlen hidle] at h
        cases h
        exact txGood_openSession hlen
      · rw [exec_txSend_busy s hlen hidle] at h
        cases h
        exact hgood
    · rw [exec_txSend_refused s (Nat.not_le.mp hlen)] at h
      cases h
  | txTick =>
    cases h
    exact txGood_tick hgood
  | txCancel =>
    cases h
    exact txGood_cancel hgood
  | reset | rxStart | rxStop | rxSample | rxAttachSync | rxDetachSync => cases hi

end Sys2Proof.Machine
end

section
/-! The invariant over a step of the synchronizer (43_clock_synchronizer.md R302 to R316, 10_state.md R48): everything a
sample of a collected run can do, and the ranges of the session after it. -/

namespace Sys2Proof.Machine

variable (c : Config) {y : SyncSession} {level : Level} {ts : Micros}

/-! ## Everything a sample of a run can do -/

variable (y level ts) in
/-- The session after a sample of START_SYNC or SYNC, and what it returns (43_clock_synchronizer.md R306 to R312). -/
inductive SyncSession.RunStep : Prop where
  | counted (h : y.collectRun c level ts = ({ y with matched := y.matched + 1 }, .none)) (hhi : y.matched + 1 ≤ y.hi c)
  | tolerated (h : y.collectRun c level ts = ({ y with wrong := y.wrong + 1 }, .none)) (hstol : y.wrong < c.params.stol)
  | first (h : y.collectRun c level ts =
        ({ y with expected := y.matched + y.wrong, expectedValid := true, t0 := ts, runLevel := level, matched := 1,
                  wrong := 0 }, .none))
      (hlevel : level ≠ y.runLevel) (hlo : y.lo c ≤ (y.matched : Int)) (hstate : y.state = .startSync)
      (hvalid : y.expectedValid = false)
  | later (h : y.collectRun c level ts =
        ({ y with state := .sync, processed := y.processed + 1, runLevel := level, matched := 1, wrong := 0 }, .none))
      (hlevel : level ≠ y.runLevel) (hvalid : y.expectedValid = true) (hmore : y.processed + 1 ≠ c.params.syncLength)
  | locks (period : Nat) (h : y.collectRun c level ts =
        ({ y with processed := c.params.syncLength, detected := micros period, state := .done },
          .done (micros period)))
      (hlevel : level ≠ y.runLevel) (hvalid : y.expectedValid = true) (hlast : y.processed + 1 = c.params.syncLength)
      (hmin : c.params.rateLo ≤ period) (hmax : period ≤ c.params.rateHi)
  | fault (code : FaultCode) (h : y.collectRun c level ts = (.reset, .fault code))

/-- In SYNC the expected count is known, so a run that ends there is no first low run. -/
theorem collectRun_step (hstate : y.state = .startSync ∨ (y.state = .sync ∧ y.expectedValid = true)) :
    y.RunStep c level ts := by
  by_cases hlevel : level = y.runLevel
  · by_cases hhi : y.matched + 1 ≤ y.hi c
    · exact .counted (collectRun_counted c hlevel hhi) hhi
    · exact .fault _ (collectRun_overrun c hlevel (Nat.not_le.mp hhi))
  · by_cases hlo : y.lo c ≤ (y.matched : Int)
    · have hcomplete := collectRun_complete (ts := ts) c hlevel hlo
      cases hvalid : y.expectedValid with
      | false =>
        have hstart : y.state = .startSync := hstate.resolve_right (by simp [hvalid])
        exact .first (hcomplete.trans (runComplete_first c hstart hvalid _)) hlevel hlo hstart hvalid
      | true =>
        by_cases hlast : y.processed + 1 = c.params.syncLength
        · have hfinish := hcomplete.trans (runComplete_last c hvalid hlast _)
          by_cases hwindow : c.params.rateLo ≤ SyncSession.estimate c { y with processed := c.params.syncLength } ts ∧
              SyncSession.estimate c { y with processed := c.params.syncLength } ts ≤ c.params.rateHi
          · obtain ⟨hmin, hmax⟩ := hwindow
            exact .locks _ (hfinish.trans (finish_locks c hmin hmax)) hlevel hvalid hlast hmin hmax
          · exact .fault _ (hfinish.trans (finish_rejects c (by omega)))
        · exact .later (hcomplete.trans (runComplete_later c hvalid hlast _)) hlevel hvalid hlast
    · by_cases hstol : y.wrong < c.params.stol
      · exact .tolerated (collectRun_tolerated c hlevel hlo hstol) hstol
      · exact .fault _ (collectRun_wrong c hlevel hlo (Nat.not_lt.mp hstol))

/-! ## The ranges, state by state -/

variable {c}

theorem syncInv_waitSync (h : y = { SyncSession.reset with waitHigh := y.waitHigh }) (hle : y.waitHigh ≤ c.params.sl) :
    y.Inv c := by
  have hstate : y.state = .waitSync := by rw [h]; rfl
  constructor <;> simp only [hstate, reduceCtorEq, IsEmpty.forall_iff, forall_true_left]
  exact ⟨h, hle⟩

theorem syncInv_reset : SyncSession.reset.Inv c := syncInv_waitSync rfl (Nat.zero_le _)

theorem syncInv_startSync (hstate : y.state = .startSync) (hrun : y.Collecting c) (hprocessed : y.processed = 0)
    (hlevel : y.runLevel = y.expectedValid) : y.Inv c := by
  constructor <;> simp only [hstate, reduceCtorEq, IsEmpty.forall_iff, forall_true_left]
  exact ⟨hrun, hprocessed, hlevel⟩

theorem syncInv_sync (hstate : y.state = .sync) (hrun : y.Collecting c) (hvalid : y.expectedValid = true)
    (hprocessed : 1 ≤ y.processed) (hlevel : y.runLevel = decide (y.processed % 2 = 0)) : y.Inv c := by
  constructor <;> simp only [hstate, reduceCtorEq, IsEmpty.forall_iff, forall_true_left]
  exact ⟨hrun, hvalid, hprocessed, hlevel⟩

theorem syncInv_done (hstate : y.state = .done) (hprocessed : y.processed = c.params.syncLength)
    (hmin : c.params.rateLo ≤ y.detected.toNat) (hmax : y.detected.toNat ≤ c.params.rateHi) : y.Inv c := by
  constructor <;> simp only [hstate, reduceCtorEq, IsEmpty.forall_iff, forall_true_left]
  exact ⟨hprocessed, hmin, hmax⟩

/-! ## WAIT_SYNC -/

theorem wait_keeps_inv (h : y.Inv c) (hstate : y.state = .waitSync) : (y.wait c level).Inv c := by
  obtain ⟨hreset, hle⟩ := h.wait hstate
  obtain ⟨-, -, -, -, -, -, hsl, hslsh, hlength, -⟩ := Config.facts c
  cases level with
  | true =>
    rw [wait_high]
    refine syncInv_waitSync ?_ (Nat.min_le_right _ _)
    rw [hreset]
  | false =>
    by_cases hopens : c.params.sl ≤ y.waitHigh
    · rw [wait_low_opens c hopens, hreset]
      have hhi : 1 ≤ c.params.sh := hsl.trans hslsh
      have hprocessed : 0 < c.params.syncLength := by omega
      exact syncInv_startSync rfl
        ⟨rfl, le_refl 1, hhi, Nat.zero_le _, Nat.zero_le _, fun _ => ⟨rfl, rfl⟩, nofun, hprocessed, rfl⟩ rfl rfl
    · rw [wait_low_short c (Nat.not_le.mp hopens)]
      refine syncInv_waitSync ?_ (Nat.zero_le _)
      rw [hreset]

/-! ## START_SYNC and SYNC -/

/-- The alternation of the runs: the level of the next run after `processed` of them. -/
theorem level_of_flip {processed : Nat} (hlevel : level ≠ decide (processed % 2 = 0)) :
    level = decide ((processed + 1) % 2 = 0) := by
  have hflip : decide ((processed + 1) % 2 = 0) = !decide (processed % 2 = 0) := by
    rw [← decide_not, decide_eq_decide]
    omega
  rw [hflip]
  exact Bool.eq_not_of_ne hlevel

theorem collecting_counted (h : y.Collecting c) (hhi : y.matched + 1 ≤ y.hi c) :
    SyncSession.Collecting c { y with matched := y.matched + 1 } :=
  { h with started := Nat.le_add_left 1 _, matched := hhi }

theorem collecting_tolerated (h : y.Collecting c) (hstol : y.wrong < c.params.stol) :
    SyncSession.Collecting c { y with wrong := y.wrong + 1 } :=
  { h with wrong := hstol }

/-- The first low run's count lies between SL and SH with at most STOL wrong samples beside it. -/
theorem collecting_first (h : y.Collecting c) (hvalid : y.expectedValid = false) (hlo : y.lo c ≤ (y.matched : Int)) :
    SyncSession.Collecting c
      { y with expected := y.matched + y.wrong, expectedValid := true, t0 := ts, runLevel := level, matched := 1,
               wrong := 0 } := by
  have hmatched := h.matched
  have hwrong := h.wrong
  obtain ⟨-, -, -, -, -, -, hsl, -⟩ := Config.facts c
  simp only [SyncSession.hi, hvalid, Bool.false_eq_true, if_false] at hmatched
  have hlong : c.params.sl ≤ y.matched := by simpa [lo_le_iff, hvalid] using hlo
  exact
    { h with
      started := le_refl 1
      matched := by simp only [SyncSession.hi, if_true]; omega
      wrong := Nat.zero_le _
      expected := Nat.add_le_add hmatched hwrong
      learning := nofun
      learned := fun _ => Nat.le_add_right_of_le hlong }

theorem collecting_later (h : y.Collecting c) (hvalid : y.expectedValid = true)
    (hmore : y.processed + 1 ≠ c.params.syncLength) :
    SyncSession.Collecting c
      { y with state := .sync, processed := y.processed + 1, runLevel := level, matched := 1, wrong := 0 } := by
  have hlearned := h.learned hvalid
  have hprocessed := h.processed
  obtain ⟨-, -, -, -, -, -, hsl, -⟩ := Config.facts c
  exact
    { h with
      started := le_refl 1
      matched := by simp only [SyncSession.hi, hvalid, if_true]; omega
      wrong := Nat.zero_le _
      processed := by show y.processed + 1 < c.params.syncLength; omega }

/-- In a state of the invariant a session that collects runs knows the run's level and what it has counted. -/
theorem collecting_of_inv (h : y.Inv c) (hstate : y.state = .startSync ∨ y.state = .sync) :
    y.Collecting c ∧ (y.state = .startSync ∨ (y.state = .sync ∧ y.expectedValid = true)) := by
  obtain hstate | hstate := hstate
  · exact ⟨(h.start hstate).1, .inl hstate⟩
  · obtain ⟨hrun, hvalid, -⟩ := h.sync hstate
    exact ⟨hrun, .inr ⟨hstate, hvalid⟩⟩

/-- A change of the counts of the current run alone keeps what the states mean. -/
theorem syncInv_of_collecting {y' : SyncSession} (h : y.Inv c) (hstate : y.state = .startSync ∨ y.state = .sync)
    (hrun : y'.Collecting c) (hstate' : y'.state = y.state) (hprocessed : y'.processed = y.processed)
    (hlevel : y'.runLevel = y.runLevel) (hvalid : y'.expectedValid = y.expectedValid) : y'.Inv c := by
  obtain hstate | hstate := hstate
  · obtain ⟨-, hzero, hpolarity⟩ := h.start hstate
    exact syncInv_startSync (hstate'.trans hstate) hrun (hprocessed.trans hzero) (by rw [hlevel, hpolarity, hvalid])
  · obtain ⟨-, hknown, hone, hpolarity⟩ := h.sync hstate
    exact syncInv_sync (hstate'.trans hstate) hrun (hvalid.trans hknown) (hprocessed.symm ▸ hone)
      (by rw [hlevel, hpolarity, hprocessed])

/-- The level of the run in progress by the half-bits processed, once the expected count is known. -/
theorem runLevel_of_inv (h : y.Inv c) (hstate : y.state = .startSync ∨ y.state = .sync)
    (hvalid : y.expectedValid = true) : y.runLevel = decide (y.processed % 2 = 0) := by
  obtain hstate | hstate := hstate
  · obtain ⟨-, hzero, hpolarity⟩ := h.start hstate
    rw [hpolarity, hvalid, hzero]
    rfl
  · exact (h.sync hstate).2.2.2

theorem collectRun_keeps_inv (h : y.Inv c) (hstate : y.state = .startSync ∨ y.state = .sync) :
    (y.collectRun c level ts).1.Inv c := by
  obtain ⟨hrun, hknown⟩ := collecting_of_inv h hstate
  cases collectRun_step (level := level) (ts := ts) c hknown with
  | counted heq hhi =>
    rw [heq]
    exact syncInv_of_collecting h hstate (collecting_counted hrun hhi) rfl rfl rfl rfl
  | tolerated heq hstol =>
    rw [heq]
    exact syncInv_of_collecting h hstate (collecting_tolerated hrun hstol) rfl rfl rfl rfl
  | first heq hlevel hlo hstart hvalid =>
    obtain ⟨-, hzero, hpolarity⟩ := h.start hstart
    have hhigh : level = true := by
      rw [hpolarity, hvalid] at hlevel
      exact Bool.eq_true_of_not_eq_false hlevel
    rw [heq]
    exact syncInv_startSync hstart (collecting_first hrun hvalid hlo) hzero hhigh
  | later heq hlevel hvalid hmore =>
    rw [runLevel_of_inv h hstate hvalid] at hlevel
    rw [heq]
    exact syncInv_sync rfl (collecting_later hrun hvalid hmore) hvalid (Nat.le_add_left 1 _) (level_of_flip hlevel)
  | locks period heq hlevel hvalid hlast hmin hmax =>
    obtain ⟨-, -, -, -, -, -, -, -, -, -, -, -, hbound, -⟩ := Config.facts c
    have hperiod := micros_toNat (lt_of_le_of_lt hmax hbound)
    rw [heq]
    exact syncInv_done rfl rfl (hperiod.symm ▸ hmin) (hperiod.symm ▸ hmax)
  | fault code heq =>
    rw [heq]
    exact syncInv_reset

/-- A sample keeps the ranges of the session. -/
theorem syncSample_keeps_inv (h : y.Inv c) : (y.sample c level ts).1.Inv c := by
  cases hstate : y.state with
  | waitSync =>
    rw [syncSample_waitSync c hstate]
    exact wait_keeps_inv h hstate
  | startSync =>
    rw [syncSample_collecting c (.inl hstate)]
    exact collectRun_keeps_inv h (.inl hstate)
  | sync =>
    rw [syncSample_collecting c (.inr hstate)]
    exact collectRun_keeps_inv h (.inr hstate)
  | done =>
    rw [syncSample_done c hstate]
    exact h

theorem wait_state_ne_done (hstate : y.state = .waitSync) : (y.wait c level).state ≠ .done := by
  unfold SyncSession.wait
  split_ifs <;> simp [hstate]

/-- In a state of the invariant only a lock moves a session to DONE. -/
theorem syncSample_state_ne_done (h : y.Inv c) (hstate : y.state ≠ .done) (hresult : ∀ p, (y.sample c level ts).2 ≠ .done p) :
    (y.sample c level ts).1.state ≠ .done := by
  by_cases hwait : y.state = .waitSync
  · rw [syncSample_waitSync c hwait]
    exact wait_state_ne_done hwait
  · have hcollecting : y.state = .startSync ∨ y.state = .sync := by
      cases hy : y.state <;> simp_all
    rw [syncSample_collecting c hcollecting] at hresult ⊢
    cases collectRun_step (level := level) (ts := ts) c (collecting_of_inv h hcollecting).2 with
    | counted heq | tolerated heq =>
      rw [heq]
      exact hstate
    | first heq _ _ hstart =>
      rw [heq]
      exact hstate
    | later heq =>
      rw [heq]
      exact nofun
    | locks period heq =>
      rw [heq] at hresult
      exact absurd rfl (hresult _)
    | fault code heq =>
      rw [heq]
      exact nofun

/-- A lock ends a high run's successor: the sample is high, the session is in DONE with its period in the rate window
(43_clock_synchronizer.md R309 to R312 with an even SYNC_LENGTH). -/
theorem lock_of_syncSample (h : y.Inv c) {y' : SyncSession} {period : Micros}
    (hresult : y.sample c level ts = (y', .done period)) :
    level = true ∧ y'.state = .done ∧ c.params.rateLo ≤ period.toNat := by
  cases hstate : y.state with
  | waitSync => simp [syncSample_waitSync c hstate] at hresult
  | done => simp [syncSample_done c hstate] at hresult
  | startSync | sync =>
    have hcollecting : y.state = .startSync ∨ y.state = .sync := by simp [hstate]
    rw [syncSample_collecting c hcollecting] at hresult
    cases collectRun_step (level := level) (ts := ts) c (collecting_of_inv h hcollecting).2 with
    | counted heq | tolerated heq | first heq | later heq | fault _ heq => simp [heq] at hresult
    | locks p heq hlevel hvalid hlast hmin hmax =>
      obtain ⟨-, -, -, -, -, -, -, -, -, heven, -, -, hbound, -⟩ := Config.facts c
      rw [heq] at hresult
      obtain ⟨rfl, hperiod⟩ := Prod.mk.inj hresult
      obtain rfl : micros p = period := SyncResult.done.inj hperiod
      rw [runLevel_of_inv h hcollecting hvalid] at hlevel
      have hhigh := level_of_flip hlevel
      rw [hlast, heven] at hhigh
      exact ⟨hhigh, rfl, (micros_toNat (lt_of_le_of_lt hmax hbound)).symm ▸ hmin⟩

end Sys2Proof.Machine
end

section
/-! The invariant over a step of the receiver side (10_state.md R40 to R49), and from both sides the invariant of the
machine: it holds after power-on and every step keeps it. -/

namespace Sys2Proof.Machine

variable {c : Config} {r : Receiver} {x : RxFramer} {d : Demod} {level b : Bool} {ts : Micros}

/-! ## The registers of the framer, state by state -/

theorem rxInv_hunting (hstate : x.state = .stopped ∨ x.state = .syncHunt)
    (h : x.buffer = 0#64 ∧ x.bitIndex = 0 ∧ x.length = 0#7 ∧ x.payload = 0#64 ∧ x.crc = 0#16) : x.Inv := by
  obtain hstate | hstate := hstate <;>
    (constructor <;> simp only [hstate, reduceCtorEq, IsEmpty.forall_iff, or_false, or_true, forall_true_left]; exact h)

theorem rxInv_waitStart (hstate : x.state = .waitStart)
    (h : x.buffer.toNat < 2 ^ markerLen ∧ x.bitIndex ≤ waitStartLimit ∧ x.length = 0#7 ∧ x.payload = 0#64 ∧
      x.crc = 0#16) : x.Inv := by
  constructor <;> simp only [hstate, reduceCtorEq, IsEmpty.forall_iff, or_false, forall_true_left]
  exact h

theorem rxInv_readLength (hstate : x.state = .readLength)
    (h : x.buffer.toNat < 2 ^ x.bitIndex ∧ x.bitIndex < lengthBits ∧ x.length = 0#7 ∧ x.payload = 0#64 ∧
      x.crc = 0#16) : x.Inv := by
  constructor <;> simp only [hstate, reduceCtorEq, IsEmpty.forall_iff, or_false, forall_true_left]
  exact h

theorem rxInv_readPayload (hstate : x.state = .readPayload)
    (h : x.buffer.toNat < 2 ^ x.bitIndex ∧ x.bitIndex < x.length.toNat ∧ x.length.toNat ≤ maxPayload ∧
      x.payload = 0#64 ∧ x.crc = 0#16) : x.Inv := by
  constructor <;> simp only [hstate, reduceCtorEq, IsEmpty.forall_iff, or_false, forall_true_left]
  exact h

theorem rxInv_readCrc (hstate : x.state = .readCrc)
    (h : x.buffer.toNat < 2 ^ x.bitIndex ∧ x.bitIndex < crcBits ∧ x.length.toNat ≤ maxPayload ∧
      x.payload.toNat < 2 ^ x.length.toNat ∧ x.crc = 0#16) : x.Inv := by
  constructor <;> simp only [hstate, reduceCtorEq, IsEmpty.forall_iff, or_false, forall_true_left]
  exact h

/-! ## The receiver side, by the kind of its state -/

/-- The invariant of a receiver side in a frame: the correlator is empty and the session reset or done. -/
structure Receiver.FrameInv (c : Config) (r : Receiver) : Prop where
  frame : r.rx.state.inFrame = true
  rx : r.rx.Inv
  dm : r.dm.Inv c
  cr : r.cr = .reset
  sy : r.sy.Inv c
  detached : r.rx.syncAttached = false → r.sy = .reset
  session : r.sy = .reset ∨ r.sy.state = .done
  period : 1 ≤ r.rx.samplePeriod.toNat

/-- The invariant of a receiver side in the hunt: the registers of a fresh hunt, with what the strategy uses. -/
structure Receiver.HuntInv (c : Config) (r : Receiver) : Prop where
  rx : r.rx = { RxFramer.reset with state := .syncHunt, syncAttached := r.rx.syncAttached,
                                    samplePeriod := nominalSampleUs c }
  dm : r.dm = .reset
  cr : r.cr.reg < 2 ^ correlatorWidth c
  attached : r.rx.syncAttached = true → r.cr.reg = 0
  sy : r.sy.Inv c
  detached : r.rx.syncAttached = false → r.sy = .reset
  session : r.sy.state ≠ .done

theorem inFrame_iff : r.rx.state.inFrame = true ↔ r.rx.state ≠ .stopped ∧ r.rx.state ≠ .syncHunt := by
  cases r.rx.state <;> simp [RxState.inFrame]

theorem Receiver.FrameInv.inv (h : r.FrameInv c) : r.Inv c := by
  obtain ⟨hstopped, hhunt⟩ := inFrame_iff.mp h.frame
  exact
    { rx := h.rx
      dm := h.dm
      dmIdle := fun hidle => (hidle.elim hstopped hhunt).elim
      cr := by rw [h.cr]; exact Nat.two_pow_pos _
      crHunting := fun hne => absurd (by rw [h.cr]; rfl) hne
      sy := h.sy
      syDetached := h.detached
      syStopped := fun hstate => absurd hstate hstopped
      syHunting := fun hstate => absurd hstate hhunt
      syFrame := fun _ _ => h.session
      periodStopped := fun hstate => absurd hstate hstopped
      periodHunting := fun hstate => absurd hstate hhunt
      periodRunning := fun _ => h.period }

theorem frameInv_of_inv (h : r.Inv c) (hframe : r.rx.state.inFrame = true) : r.FrameInv c := by
  obtain ⟨hstopped, hhunt⟩ := inFrame_iff.mp hframe
  have hreg : r.cr.reg = 0 := by_contra fun hne => hhunt (h.crHunting hne).1
  exact
    { frame := hframe
      rx := h.rx
      dm := h.dm
      cr := congrArg Correlator.mk hreg
      sy := h.sy
      detached := h.syDetached
      session := h.syFrame hstopped hhunt
      period := h.periodRunning hstopped }

theorem demodInv_reset : Demod.reset.Inv c := by
  obtain ⟨hn, -⟩ := Config.facts c
  have hpos : 0 < c.params.n := by omega
  exact ⟨hpos, rfl⟩

theorem Receiver.HuntInv.inv (h : r.HuntInv c) : r.Inv c := by
  have hstate : r.rx.state = .syncHunt := by rw [h.rx]
  have hperiod : r.rx.samplePeriod = nominalSampleUs c := by rw [h.rx]
  exact
    { rx := rxInv_hunting (.inr hstate) (by rw [h.rx]; exact ⟨rfl, rfl, rfl, rfl, rfl⟩)
      dm := by rw [h.dm]; exact demodInv_reset
      dmIdle := fun _ => h.dm
      cr := h.cr
      crHunting := fun hne => ⟨hstate, Bool.eq_false_of_not_eq_true fun hattached => hne (h.attached hattached)⟩
      sy := h.sy
      syDetached := h.detached
      syStopped := fun hstopped => by rw [hstate] at hstopped; cases hstopped
      syHunting := fun _ => h.session
      syFrame := fun _ hhunt => absurd hstate hhunt
      periodStopped := fun hstopped => by rw [hstate] at hstopped; cases hstopped
      periodHunting := fun _ => hperiod
      periodRunning := fun _ => by rw [hperiod]; exact one_le_nominalSampleUs c }

theorem huntInv_of_inv (h : r.Inv c) (hstate : r.rx.state = .syncHunt) : r.HuntInv c := by
  obtain ⟨hbuffer, hindex, hlength, hpayload, hcrc⟩ := h.rx.hunting (.inr hstate)
  have hperiod := h.periodHunting hstate
  exact
    { rx := by
        cases hx : r.rx
        simp_all [RxFramer.reset]
      dm := h.dmIdle (.inr hstate)
      cr := h.cr
      attached := fun hattached => by_contra fun hne => by
        have hdetached := (h.crHunting hne).2
        rw [hattached] at hdetached
        cases hdetached
      sy := h.sy
      detached := h.syDetached
      session := h.syHunting hstate }

theorem huntInv_freshHunt (c : Config) (attached : Bool) : (Receiver.freshHunt c attached).HuntInv c :=
  ⟨rfl, rfl, Nat.two_pow_pos _, fun _ => rfl, syncInv_reset, fun _ => rfl, nofun⟩

/-- A stopped receiver side is at its reset value but for the strategy. -/
theorem inv_stopped (c : Config) (attached : Bool) :
    Receiver.Inv c { rx := { RxFramer.reset with syncAttached := attached }, dm := .reset, cr := .reset,
                     sy := .reset } where
  rx := rxInv_hunting (.inl rfl) ⟨rfl, rfl, rfl, rfl, rfl⟩
  dm := demodInv_reset
  dmIdle _ := rfl
  cr := Nat.two_pow_pos _
  crHunting hne := absurd rfl hne
  sy := syncInv_reset
  syDetached _ := rfl
  syStopped _ := rfl
  syHunting h := by cases h
  syFrame h := absurd rfl h
  periodStopped _ := rfl
  periodHunting h := by cases h
  periodRunning h := absurd rfl h

/-! ## What the RX trigger holds -/

/-- The receiver's half of `State.AgentsInv`. -/
structure RxFramer.Served (x : RxFramer) (a : Agents) : Prop where
  stopped : x.state = .stopped → a.rxTrigger = .idle
  running : x.state ≠ .stopped → a.rxTrigger = .recurring x.samplePeriod

/-- The receiver side `r` is in its ranges and served by the collaborators `a`. -/
def Receiver.Good (c : Config) (r : Receiver) (a : Agents) : Prop := r.Inv c ∧ r.rx.Served a

theorem served_running {a : Agents} (hstate : x.state ≠ .stopped) (h : a.rxTrigger = .recurring x.samplePeriod) :
    x.Served a := ⟨fun hstopped => absurd hstopped hstate, fun _ => h⟩

theorem served_stopped {a : Agents} (hstate : x.state = .stopped) (h : a.rxTrigger = .idle) : x.Served a :=
  ⟨fun _ => h, fun hrunning => absurd hstate hrunning⟩

/-- Every firing owed by the block's request leaves the request as it is. -/
theorem served_fire {a : Agents} (h : x.Served a) : x.Served { a with rxTrigger := a.rxTrigger.fire } := by
  by_cases hstate : x.state = .stopped
  · exact served_stopped hstate (by rw [h.stopped hstate]; rfl)
  · exact served_running hstate (by rw [h.running hstate]; rfl)

/-- The trigger follows a receiver that keeps its period and goes on running. -/
theorem served_of_period_eq {a : Agents} {x' : RxFramer} (h : x.Served a) (hstate : x.state ≠ .stopped)
    (hstate' : x'.state ≠ .stopped) (hperiod : x'.samplePeriod = x.samplePeriod) : x'.Served a :=
  served_running hstate' (by rw [hperiod]; exact h.running hstate)

/-- A fresh hunt whose last event is the request of its trigger. -/
theorem rxGood_freshHunt (attached : Bool) (a : Agents) (es : List Event) :
    (Receiver.freshHunt c attached).Good c (a.observeAll (es ++ [.rxSetRecurring (nominalSampleUs c)])) := by
  refine ⟨(huntInv_freshHunt c attached).inv, served_running nofun ?_⟩
  rw [observeAll_append]
  rfl

/-! ## A recovered bit -/

theorem demodSample_keeps_inv (h : d.Inv c) : (d.sample c level).1.Inv c := by
  obtain ⟨hslot, htallies⟩ := h
  obtain ⟨hn, -⟩ := Config.facts c
  obtain ⟨hzero, heq⟩ | ⟨hpos, hinner, heq⟩ | ⟨-, -, heq⟩ := demod_sample_cases c d level
  · rw [heq]
    refine ⟨?_, ?_⟩
    · show 1 < c.params.n
      omega
    · show d.lowCount + d.highCount = 1 - 1
      omega
  · rw [heq]
    refine ⟨?_, ?_⟩
    · show d.slot + 1 < c.params.n
      omega
    · cases level <;> simp only [tally_high, tally_low] <;> omega
  · rw [heq]
    exact ⟨demodInv_reset.slot, rfl⟩

/-- An accumulator with `n` bits below `2^n` that takes one more. -/
theorem take_lt {w n : Nat} (hw : w ≤ 64) (h : x.buffer.toNat < 2 ^ n) : (x.take w b).buffer.toNat < 2 ^ (n + 1) := by
  rw [take_buffer, shiftIn_toNat hw]
  exact shiftInNat_lt_succ b h

/-- Another state of the same frame: only the framer's registers for it are asked. -/
theorem frameInv_of_rx {r' : Receiver} (h : r.FrameInv c) (hframe : r'.rx.state.inFrame = true) (hrx : r'.rx.Inv)
    (hdm : r'.dm = r.dm) (hcr : r'.cr = r.cr) (hsy : r'.sy = r.sy) (hattached : r'.rx.syncAttached = r.rx.syncAttached)
    (hperiod : r'.rx.samplePeriod = r.rx.samplePeriod) : r'.FrameInv c where
  frame := hframe
  rx := hrx
  dm := hdm.symm ▸ h.dm
  cr := hcr.trans h.cr
  sy := hsy.symm ▸ h.sy
  detached := by rw [hattached, hsy]; exact h.detached
  session := by rw [hsy]; exact h.session
  period := hperiod.symm ▸ h.period

/-- The framer's registers after a bit that goes on with the frame. -/
theorem rxGood_of_frame {r' : Receiver} {a : Agents} (h : r.FrameInv c) (hserved : r.rx.Served a)
    (hframe : r'.rx.state.inFrame = true) (hrx : r'.rx.Inv)
    (hdm : r'.dm = r.dm) (hcr : r'.cr = r.cr) (hsy : r'.sy = r.sy) (hattached : r'.rx.syncAttached = r.rx.syncAttached)
    (hperiod : r'.rx.samplePeriod = r.rx.samplePeriod) : r'.Good c a :=
  ⟨(frameInv_of_rx h hframe hrx hdm hcr hsy hattached hperiod).inv,
    served_of_period_eq hserved (inFrame_iff.mp h.frame).1 (inFrame_iff.mp hframe).1 hperiod⟩

theorem framerBit_keeps_good {a : Agents} (h : r.FrameInv c) (hserved : r.rx.Served a) :
    (r.framerBit c b).1.Good c (a.observeAll (r.framerBit c b).2) := by
  cases framerBit_step c r b with
  | ignored heq =>
    rw [heq]
    exact ⟨h.inv, hserved⟩
  | waitMatch hstate heq =>
    obtain ⟨-, -, hlength, hpayload, hcrc⟩ := h.rx.waitStart hstate
    rw [heq]
    exact rxGood_of_frame h hserved rfl
      (rxInv_readLength rfl ⟨by simp, Nat.zero_lt_succ _, hlength, hpayload, hcrc⟩) rfl rfl rfl rfl rfl
  | waitMore hstate hindex heq =>
    obtain ⟨-, -, hlength, hpayload, hcrc⟩ := h.rx.waitStart hstate
    have hbuffer : (r.rx.take 12 b).buffer.toNat < 2 ^ markerLen := by
      rw [take_buffer, shiftIn_toNat (by decide)]
      exact shiftInNat_lt _ _ _
    rw [heq]
    exact rxGood_of_frame h hserved h.frame
      (rxInv_waitStart hstate ⟨hbuffer, hindex, hlength, hpayload, hcrc⟩) rfl rfl rfl rfl rfl
  | lengthMore hstate hindex heq =>
    obtain ⟨hbuffer, hcount, hlength, hpayload, hcrc⟩ := h.rx.readLength hstate
    have hcount' : r.rx.bitIndex + 1 < lengthBits := Nat.lt_of_le_of_ne hcount hindex
    rw [heq]
    exact rxGood_of_frame h hserved h.frame
      (rxInv_readLength hstate ⟨take_lt (le_refl 64) hbuffer, hcount', hlength, hpayload, hcrc⟩) rfl rfl rfl rfl rfl
  | lengthZero hstate heq =>
    obtain ⟨-, -, -, -, hcrc⟩ := h.rx.readLength hstate
    rw [heq]
    exact rxGood_of_frame h hserved rfl
      (rxInv_readCrc rfl ⟨by simp, Nat.zero_lt_succ _, Nat.zero_le _, by simp, hcrc⟩) rfl rfl rfl rfl rfl
  | lengthStores hstate hpos hle heq =>
    obtain ⟨-, -, -, hpayload, hcrc⟩ := h.rx.readLength hstate
    have hlength : ((shiftIn 64 r.rx.buffer b).setWidth 7).toNat = (shiftIn 64 r.rx.buffer b).toNat := by
      rw [BitVec.toNat_setWidth, Nat.mod_eq_of_lt (by omega)]
    rw [heq]
    exact rxGood_of_frame h hserved rfl
      (rxInv_readPayload rfl ⟨by simp, hlength.symm ▸ hpos, hlength.symm ▸ hle, hpayload, hcrc⟩) rfl rfl rfl rfl rfl
  | payloadMore hstate hindex heq =>
    obtain ⟨hbuffer, hcount, hlength, hpayload, hcrc⟩ := h.rx.readPayload hstate
    have hcount' : r.rx.bitIndex + 1 < r.rx.length.toNat := Nat.lt_of_le_of_ne hcount hindex
    rw [heq]
    exact rxGood_of_frame h hserved h.frame
      (rxInv_readPayload hstate ⟨take_lt (le_refl 64) hbuffer, hcount', hlength, hpayload, hcrc⟩) rfl rfl rfl rfl rfl
  | payloadDone hstate hindex heq =>
    obtain ⟨hbuffer, -, hlength, -, hcrc⟩ := h.rx.readPayload hstate
    have hpayload : (shiftIn 64 r.rx.buffer b).toNat < 2 ^ r.rx.length.toNat := by
      rw [← hindex]
      exact take_lt (le_refl 64) hbuffer
    rw [heq]
    exact rxGood_of_frame h hserved rfl
      (rxInv_readCrc rfl ⟨by simp, Nat.zero_lt_succ _, hlength, hpayload, hcrc⟩) rfl rfl rfl rfl rfl
  | crcMore hstate hindex heq =>
    obtain ⟨hbuffer, hcount, hlength, hpayload, hcrc⟩ := h.rx.readCrc hstate
    have hcount' : r.rx.bitIndex + 1 < crcBits := Nat.lt_of_le_of_ne hcount hindex
    rw [heq]
    exact rxGood_of_frame h hserved h.frame
      (rxInv_readCrc hstate ⟨take_lt (by decide) hbuffer, hcount', hlength, hpayload, hcrc⟩) rfl rfl rfl rfl rfl
  | fault code heq =>
    rw [heq]
    exact rxGood_freshHunt _ a [_, _]
  | message hstate hindex heq =>
    rw [heq]
    exact rxGood_freshHunt _ a [_, _]

/-! ## A sample -/

theorem frameSample_keeps_good {a : Agents} (h : r.FrameInv c) (hserved : r.rx.Served a) :
    (r.frameSample c level).1.Good c (a.observeAll (r.frameSample c level).2) := by
  have hdm := demodSample_keeps_inv (level := level) h.dm
  have hcell : Receiver.FrameInv c { r with dm := (r.dm.sample c level).1 } := { h with dm := hdm }
  obtain ⟨-, hnone⟩ | ⟨-, hfault⟩ | ⟨b, -, hbit⟩ := frameSample_cases c r level
  · rw [hnone]
    exact ⟨hcell.inv, hserved⟩
  · rw [hfault]
    exact rxGood_freshHunt _ a [_, _]
  · rw [hbit]
    exact framerBit_keeps_good hcell hserved

theorem staticCorrelate_keeps_good {a : Agents} (h : r.HuntInv c) (hattached : r.rx.syncAttached = false)
    (hserved : r.rx.Served a) :
    (r.staticCorrelate c level).1.Good c (a.observeAll (r.staticCorrelate c level).2) := by
  have hstate : r.rx.state = .syncHunt := by rw [h.rx]
  by_cases hmatch : shiftInNat (correlatorWidth c) r.cr.reg level = reference c
  · obtain ⟨-, -, hlength, hpayload, hcrc⟩ := h.inv.rx.hunting (.inr hstate)
    have hrunning : r.rx.state ≠ .stopped := by simp [hstate]
    rw [staticCorrelate_match c hmatch]
    refine ⟨Receiver.FrameInv.inv ?_, served_of_period_eq hserved hrunning nofun rfl⟩
    exact
      { frame := rfl
        rx := rxInv_waitStart rfl ⟨by simp, Nat.zero_le _, hlength, hpayload, hcrc⟩
        dm := demodInv_reset
        cr := rfl
        sy := h.sy
        detached := h.detached
        session := .inl (h.detached hattached)
        period := h.inv.periodRunning hrunning }
  · rw [staticCorrelate_miss c hmatch]
    refine ⟨Receiver.HuntInv.inv ?_, hserved⟩
    exact { h with
      cr := shiftInNat_lt _ _ _
      attached := fun htrue => absurd (hattached.symm.trans htrue) Bool.false_ne_true }

/-- The period of a lock is at least `N`, so the sample period is at least 1 µs. -/
theorem one_le_lockedPeriod {period : Micros} (h : c.params.rateLo ≤ period.toNat) :
    1 ≤ (micros (period.toNat / c.params.n)).toNat := by
  obtain ⟨hn, -, -, -, -, -, -, -, -, -, hrate, -⟩ := Config.facts c
  rw [micros_toNat (lt_of_le_of_lt (Nat.div_le_self _ _) period.isLt)]
  exact (Nat.one_le_div_iff (by omega)).mpr (hrate.trans h)

theorem locked_frameInv {y : SyncSession} {q : Micros} (h : r.HuntInv c) (hattached : r.rx.syncAttached = true)
    (hy : y.Inv c) (hdone : y.state = .done) (hq : 1 ≤ q.toNat) : (r.locked y level q).FrameInv c := by
  have hstate : r.rx.state = .syncHunt := by rw [h.rx]
  obtain ⟨-, -, hlength, hpayload, hcrc⟩ := h.inv.rx.hunting (.inr hstate)
  obtain ⟨hn, -⟩ := Config.facts c
  have hslot : 2 < c.params.n := hn
  exact
    { frame := rfl
      rx := rxInv_waitStart rfl ⟨by simp [Receiver.locked], by simp [Receiver.locked], hlength, hpayload, hcrc⟩
      dm := ⟨hslot, by cases level <;> rfl⟩
      cr := rfl
      sy := hy
      detached := fun hfalse => absurd (hattached.symm.trans hfalse) nofun
      session := .inr hdone
      period := hq }

theorem dynamicHunt_keeps_good {a : Agents} (h : r.HuntInv c) (hattached : r.rx.syncAttached = true)
    (hserved : r.rx.Served a) :
    (r.dynamicHunt c level ts).1.Good c (a.observeAll (r.dynamicHunt c level ts).2) := by
  have hinv := syncSample_keeps_inv (level := level) (ts := ts) h.sy
  have hstays := syncSample_state_ne_done (level := level) (ts := ts) h.sy h.session
  cases hsession : r.sy.sample c level ts with
  | mk y result =>
    rw [hsession] at hinv hstays
    cases result with
    | none =>
      rw [dynamicHunt_of_none c hsession]
      refine ⟨Receiver.HuntInv.inv ?_, hserved⟩
      exact { h with
        sy := hinv
        detached := fun hfalse => absurd (hattached.symm.trans hfalse) nofun
        session := hstays nofun }
    | fault code =>
      rw [dynamicHunt_of_fault c hsession]
      refine ⟨Receiver.HuntInv.inv ?_, hserved⟩
      exact { h with
        sy := hinv
        detached := fun hfalse => absurd (hattached.symm.trans hfalse) nofun
        session := hstays nofun }
    | done period =>
      obtain ⟨-, hdone, hmin⟩ := lock_of_syncSample h.sy hsession
      rw [dynamicHunt_of_done c hsession]
      exact ⟨(locked_frameInv h hattached hinv hdone (one_le_lockedPeriod hmin)).inv, served_running nofun rfl⟩

theorem sample_keeps_good {a : Agents} (h : r.Good c a) :
    (r.sample c level ts).1.Good c
      (({ a with rxTrigger := a.rxTrigger.fire } : Agents).observeAll (r.sample c level ts).2) := by
  obtain ⟨hinv, hserved⟩ := h
  have hfired := served_fire hserved
  cases hstate : r.rx.state with
  | stopped =>
    rw [sample_stopped c hstate]
    exact ⟨hinv, hfired⟩
  | syncHunt =>
    have hhunt := huntInv_of_inv hinv hstate
    cases hattached : r.rx.syncAttached with
    | true =>
      rw [sample_dynamic c hstate hattached]
      exact dynamicHunt_keeps_good hhunt hattached hfired
    | false =>
      rw [sample_static c hstate hattached]
      exact staticCorrelate_keeps_good hhunt hattached hfired
  | waitStart | readLength | readPayload | readCrc =>
    have hframe : r.rx.state.inFrame = true := by rw [hstate]; rfl
    rw [sample_frame c hframe]
    exact frameSample_keeps_good (frameInv_of_inv hinv hframe) hfired

/-! ## The other commands of the receiver -/

theorem start_keeps_good {a : Agents} (h : r.Good c a) : (r.start c).1.Good c (a.observeAll (r.start c).2) := by
  by_cases hstate : r.rx.state = .stopped
  · rw [start_of_stopped c hstate]
    exact rxGood_freshHunt _ a []
  · rw [start_of_not_stopped c hstate]
    exact h

theorem stop_keeps_good {a : Agents} (h : r.Good c a) : r.stop.1.Good c (a.observeAll r.stop.2) := by
  by_cases hstate : r.rx.state = .stopped
  · rw [stop_of_stopped hstate]
    exact h
  · rw [stop_of_not_stopped hstate]
    exact ⟨inv_stopped c _, served_stopped rfl rfl⟩

theorem selectStrategy_keeps_good {a : Agents} (attached : Bool) (h : r.Good c a) :
    (r.selectStrategy attached).Good c a := by
  obtain ⟨hinv, hserved⟩ := h
  cases hstate : r.rx.state with
  | stopped =>
    have hx : { r.rx with syncAttached := attached } = { RxFramer.reset with syncAttached := attached } := by
      obtain ⟨hbuffer, hindex, hlength, hpayload, hcrc⟩ := hinv.rx.hunting (.inl hstate)
      simp [RxFramer.reset, hstate, hbuffer, hindex, hlength, hpayload, hcrc, hinv.periodStopped hstate]
    have hcr : r.cr = .reset := congrArg Correlator.mk
      (by_contra fun hne => absurd (hinv.crHunting hne).1 (by simp [hstate]))
    rw [selectStrategy_not_hunting attached (by simp [hstate]), hx, hinv.dmIdle (.inl hstate), hcr]
    exact ⟨inv_stopped c attached, served_stopped rfl (hserved.stopped hstate)⟩
  | syncHunt =>
    have hhunt := huntInv_of_inv hinv hstate
    rw [selectStrategy_hunting attached hstate]
    refine ⟨Receiver.HuntInv.inv ?_, served_of_period_eq hserved (by simp [hstate]) (by simp [hstate]) rfl⟩
    exact
      { rx := by rw [hhunt.rx]
        dm := hhunt.dm
        cr := Nat.two_pow_pos _
        attached := fun _ => rfl
        sy := syncInv_reset
        detached := fun _ => rfl
        session := nofun }
  | waitStart | readLength | readPayload | readCrc =>
    have hframe : r.rx.state.inFrame = true := by rw [hstate]; rfl
    have hrunning := (inFrame_iff.mp hframe).1
    have h' := frameInv_of_inv hinv hframe
    rw [selectStrategy_not_hunting attached (inFrame_iff.mp hframe).2]
    refine ⟨Receiver.FrameInv.inv ?_, served_of_period_eq hserved hrunning hrunning rfl⟩
    exact { h' with
      rx := ⟨h'.rx.hunting, h'.rx.waitStart, h'.rx.readLength, h'.rx.readPayload, h'.rx.readCrc⟩
      sy := syncInv_reset
      detached := fun _ => rfl
      session := .inl rfl }

/-- An RX command keeps the receiver's half of the invariant. -/
theorem exec_keeps_rx {i : Instr} {s s' : State} (hi : i.isRx = true) (h : exec i s = .next s')
    (hgood : s.rcv.Good s.cfg s.agents) : s'.rcv.Good s'.cfg s'.agents := by
  cases i with
  | rxStart =>
    cases h
    exact start_keeps_good hgood
  | rxStop =>
    cases h
    exact stop_keeps_good hgood
  | rxSample lvl ts =>
    cases h
    exact sample_keeps_good hgood
  | rxAttachSync =>
    cases h
    exact selectStrategy_keeps_good true hgood
  | rxDetachSync =>
    cases h
    exact selectStrategy_keeps_good false hgood
  | reset | txSend | txTick | txCancel => cases hi

/-! ## The machine -/

variable {s s' : State} {i : Instr}

/-- The invariant of the machine is the two halves and the history. -/
theorem inv_iff : s.Inv ↔ s.tx.Good s.cfg s.agents ∧ s.rcv.Good s.cfg s.agents ∧ s.events <:+ s.history := by
  refine ⟨fun h => ?_, fun h => ?_⟩
  · obtain ⟨htx, hrcv, ⟨h1, h2, h3, h4, h5, h6⟩, hhistory⟩ := h
    exact ⟨⟨htx, h1, h2, h3, h4⟩, ⟨hrcv, h5, h6⟩, hhistory⟩
  · obtain ⟨⟨htx, h1, h2, h3, h4⟩, ⟨hrcv, h5, h6⟩, hhistory⟩ := h
    exact ⟨htx, hrcv, ⟨h1, h2, h3, h4, h5, h6⟩, hhistory⟩

/-- The transmitter's half speaks of the transmitter's part alone. -/
theorem txGood_of_txPart_eq (hcfg : s'.cfg = s.cfg) (h : s'.txPart = s.txPart) (hgood : s.tx.Good s.cfg s.agents) :
    s'.tx.Good s'.cfg s'.agents := by
  obtain ⟨htx, htrigger, hline⟩ : s'.tx = s.tx ∧ s'.agents.txTrigger = s.agents.txTrigger ∧
      s'.agents.line = s.agents.line := by simpa [State.txPart] using h
  obtain ⟨hinv, h1, h2, h3, h4⟩ := hgood
  rw [htx, hcfg]
  exact ⟨hinv, by rwa [htrigger], by rwa [htrigger], by rwa [htrigger], by rwa [hline]⟩

/-- The receiver's half speaks of the receiver's part alone. -/
theorem rxGood_of_rxPart_eq (hcfg : s'.cfg = s.cfg) (h : s'.rxPart = s.rxPart) (hgood : s.rcv.Good s.cfg s.agents) :
    s'.rcv.Good s'.cfg s'.agents := by
  obtain ⟨hrcv, htrigger⟩ : s'.rcv = s.rcv ∧ s'.agents.rxTrigger = s.agents.rxTrigger := by
    simpa [State.rxPart] using h
  obtain ⟨hinv, h1, h2⟩ := hgood
  rw [hrcv, hcfg]
  exact ⟨hinv, by rwa [htrigger], by rwa [htrigger]⟩

theorem inv_after_reset (hs : s.tx = .reset) (hr : s.rcv = .reset) (htx : s.agents.txTrigger = .idle)
    (hrx : s.agents.rxTrigger = .idle) (hhistory : s.events <:+ s.history) : s.Inv := by
  rw [inv_iff, hs, hr]
  exact ⟨txGood_reset htx, ⟨inv_stopped s.cfg false, served_stopped rfl hrx⟩, hhistory⟩

/-- Every command ends the history with its events. -/
theorem exec_history (h : exec i s = .next s') : s'.history = s.history ++ s'.events := by
  cases i with
  | txSend payload len crc =>
    by_cases hlen : len.toNat ≤ maxPayload
    · obtain ⟨t, ht, -, -, hhistory, -⟩ :=
        everyWellFormedCommandCompletes (.txSend payload len crc) s (sendLengthOk_iff.mpr hlen)
      rw [h] at ht
      cases ht
      exact hhistory
    · rw [exec_txSend_refused s (Nat.not_le.mp hlen)] at h
      cases h
  | reset | txTick | txCancel | rxStart | rxStop | rxSample | rxAttachSync | rxDetachSync =>
    cases h
    rfl

/-- Every command keeps the invariant: its own side's half by what it does there, the other half because it does not
touch it. -/
theorem exec_keeps_inv (h : exec i s = .next s') (hinv : s.Inv) : s'.Inv := by
  have hcfg := (exec_cfg_inbox h).1
  have hhistory : s'.events <:+ s'.history := by
    rw [exec_history h]
    exact List.suffix_append _ _
  obtain ⟨htx, hrx, -⟩ := inv_iff.mp hinv
  cases i with
  | reset =>
    cases h
    exact inv_after_reset rfl rfl rfl rfl hhistory
  | txSend | txTick | txCancel =>
    exact inv_iff.mpr ⟨exec_keeps_tx rfl h htx, rxGood_of_rxPart_eq hcfg (exec_rxPart_of_isTx rfl h) hrx, hhistory⟩
  | rxStart | rxStop | rxSample | rxAttachSync | rxDetachSync =>
    exact inv_iff.mpr ⟨txGood_of_txPart_eq hcfg (exec_txPart_of_isRx rfl h) htx, exec_keeps_rx rfl h hrx, hhistory⟩

/-- Taking a command word touches no part the invariant speaks of. -/
theorem inv_of_inbox {rest : List CommandWord} (h : s.Inv) : State.Inv { s with inbox := rest } := by
  obtain ⟨htx, hrx, hhistory⟩ := inv_iff.mp h
  exact inv_iff.mpr ⟨htx, hrx, hhistory⟩

/-- Settles O59. -/
theorem invariantHoldsAtPowerOn : Obligations.InvariantHoldsAtPowerOn := by
  unfold Obligations.InvariantHoldsAtPowerOn
  exact fun c => inv_after_reset rfl rfl rfl rfl (List.suffix_refl _)

/-- Settles O60: a step is nothing, or a command on the state with its word taken. -/
theorem invariantKeptByEveryStep : Obligations.InvariantKeptByEveryStep := by
  unfold Obligations.InvariantKeptByEveryStep
  intro s t hinv hstep
  obtain ⟨-, rfl⟩ | ⟨w, rest, i, -, hexec⟩ := step_cases hstep
  · exact hinv
  · exact exec_keeps_inv hexec (inv_of_inbox hinv)

/-! ## What a report says of the state before it -/

/-- Settles O50: only a lock reports RX_SYNCHRONIZED, its sample is high, and the seeded tally is of its level. -/
theorem recoveryEndsOnAHighSample : Obligations.RecoveryEndsOnAHighSample := by
  unfold Obligations.RecoveryEndsOnAHighSample
  intro s t lvl ts period hinv hexec hmem
  cases hexec
  rw [completeRx_events] at hmem
  cases sample_kind s.cfg s.rcv lvl ts with
  | quiet h | sessionFault _ h | frameFault _ h | message _ _ _ _ h => simp [h] at hmem
  | locked y p hsession h =>
    obtain ⟨rfl, -⟩ := lock_of_syncSample hinv.rcv.sy hsession
    refine ⟨rfl, ?_⟩
    rw [completeRx_rcv, h]
    rfl

/-- A demodulator in its ranges gives a bit at the last slot alone. -/
theorem lastSlot_of_bit (h : d.Inv c) (hbit : (d.sample c level).2 = .bit b) : d.slot + 1 = c.params.n := by
  have hslot := h.slot
  obtain ⟨-, heq⟩ | ⟨-, -, heq⟩ | ⟨-, hlast, -⟩ := demod_sample_cases c d level
  · simp [heq] at hbit
  · simp [heq] at hbit
  · omega

/-- A message is reported by the receiver side alone, and by no command but RX_SAMPLE. -/
theorem rxSample_of_rxMessage_mem {payload : BitVec 64} {len : BitVec 7} {crc : BitVec 16} (h : exec i s = .next s')
    (hmem : .rxMessage payload len crc ∈ s'.events) : ∃ lvl ts, i = .rxSample lvl ts := by
  cases i with
  | rxSample lvl ts => exact ⟨lvl, ts, rfl⟩
  | txSend | txTick | txCancel =>
    have htx := (exec_events_of_isTx rfl h).1 _ hmem
    cases htx
  | reset =>
    cases h
    simp [resetEvents] at hmem
  | rxStart =>
    cases h
    obtain hes | hes := start_events s.cfg s.rcv <;> simp [hes] at hmem
  | rxStop =>
    cases h
    obtain hes | hes := stop_events s.rcv <;> simp [hes] at hmem
  | rxAttachSync | rxDetachSync =>
    cases h
    simp at hmem

/-- Dropping the last bit of a 16-bit number that has just taken one gives the number before it. -/
theorem crc_before_last_bit {buffer : BitVec 64} (h : buffer.toNat < 2 ^ 15) :
    ((shiftIn 16 buffer b).setWidth 16).toNat / 2 = buffer.toNat := by
  have hbit := bitNat_le_one b
  rw [BitVec.toNat_setWidth, shiftIn_toNat (by decide), shiftInNat_eq b (by omega), Nat.mod_eq_of_lt (by omega)]
  omega

/-- Settles O58: the one kind of RX_SAMPLE that reports a message is the last bit of READ_CRC, and the invariant bounds
the payload and the bits of the CRC taken so far. -/
theorem aMessageComesOnlyFromACompleteFrame : Obligations.AMessageComesOnlyFromACompleteFrame := by
  unfold Obligations.AMessageComesOnlyFromACompleteFrame
  intro i s t payload len crc hinv hexec hmem
  obtain ⟨lvl, ts, rfl⟩ := rxSample_of_rxMessage_mem hexec hmem
  cases hexec
  rw [completeRx_events] at hmem
  cases sample_kind s.cfg s.rcv lvl ts with
  | quiet h | sessionFault _ h | locked _ _ _ h | frameFault _ h => simp [h] at hmem
  | message b hstate hbit hindex h =>
    obtain ⟨rfl, rfl, rfl⟩ : payload = s.rcv.rx.payload ∧ len = s.rcv.rx.length ∧
        crc = (shiftIn 16 s.rcv.rx.buffer b).setWidth 16 := by simpa [h] using hmem
    obtain ⟨hbuffer, -, -, hpayload, -⟩ := hinv.rcv.rx.readCrc hstate
    have hcount : s.rcv.rx.bitIndex = 15 := by omega
    rw [hcount] at hbuffer
    refine ⟨⟨lvl, ts, rfl⟩, hstate, hcount, lastSlot_of_bit hinv.rcv.dm hbit, rfl, rfl, hpayload,
      crc_before_last_bit hbuffer, ?_⟩
    rw [completeRx_rcv, h]

end Sys2Proof.Machine
end

section
/-! Whole fields and whole frames on the line (40_transmit_framer.md R155 to R168, 30_encoding.md R140 to R146): a field of
`n` bits takes `n` TX_TICKs, and the fields follow one another. -/

namespace Sys2Proof.Machine

/-! ## Runs of TX_TICK -/

theorem runCommands_cons {i : Instr} {is : List Instr} {s u : State} (h : exec i s = .next u) :
    runCommands (i :: is) s = runCommands is u := by
  simp [runCommands, h]

theorem runCommands_append {is js : List Instr} {s u : State} (h : runCommands is s = .next u) :
    runCommands (is ++ js) s = runCommands js u := by
  induction is generalizing s with
  | nil =>
    cases h
    rfl
  | cons i is ih =>
    rw [List.cons_append]
    cases hexec : exec i s with
    | next t =>
      rw [runCommands_cons hexec] at h ⊢
      exact ih h
    | fault f => simp [runCommands, hexec] at h
    | refused e => simp [runCommands, hexec] at h

/-- `n` TX_TICKs lead from `s` to `t` and emit `es`; the receiver's part and the configuration stay. -/
structure Ticks (n : Nat) (s t : State) (es : List Event) : Prop where
  run : runCommands (List.replicate n .txTick) s = .next t
  history : t.history = s.history ++ es
  cfg : t.cfg = s.cfg
  rxPart : t.rxPart = s.rxPart

section
variable {m n : Nat} {s t u : State} {es fs : List Event}

theorem Ticks.zero (s : State) : Ticks 0 s s [] := ⟨rfl, (List.append_nil _).symm, rfl, rfl⟩

theorem Ticks.one (h : exec .txTick s = .next t) : Ticks 1 s t t.events where
  run := runCommands_cons h
  history := exec_history h
  cfg := (exec_cfg_inbox h).1
  rxPart := exec_rxPart_of_isTx rfl h

theorem Ticks.trans (h : Ticks m s t es) (h' : Ticks n t u fs) : Ticks (m + n) s u (es ++ fs) where
  run := by rw [List.replicate_add, runCommands_append h.run, h'.run]
  history := by rw [h'.history, h.history, List.append_assoc]
  cfg := h'.cfg.trans h.cfg
  rxPart := h'.rxPart.trans h.rxPart

theorem Ticks.rcv (h : Ticks n s t es) : t.rcv = s.rcv := congrArg Prod.fst h.rxPart

theorem Ticks.rxTrigger (h : Ticks n s t es) : t.agents.rxTrigger = s.agents.rxTrigger := congrArg Prod.snd h.rxPart

end

/-! ## The levels of a field -/

@[simp] theorem level_setSignal (lvl : Level) : (Event.setSignal lvl).level? = some lvl := rfl
@[simp] theorem level_txSetOneShot (us : Micros) : (Event.txSetOneShot us).level? = none := rfl
@[simp] theorem level_txSetRecurring (us : Micros) : (Event.txSetRecurring us).level? = none := rfl
@[simp] theorem level_txCancelTrigger : Event.txCancelTrigger.level? = none := rfl
@[simp] theorem level_txComplete : Event.txComplete.level? = none := rfl

@[simp] theorem level_comp_setSignal : Event.level? ∘ Event.setSignal = some := rfl

@[simp] theorem filter_isNone_setSignal (bs : List Bool) :
    (bs.map Event.setSignal).filter (fun e => e.level?.isNone) = [] := by
  induction bs with
  | nil => rfl
  | cons b bs ih => simpa using ih

/-- The next `n` bits of a field, down to bit 0. -/
def TxSession.bitsLeft (t : TxSession) (n : Nat) : List Bool := (List.range n).reverse.map t.fieldBit

theorem bitsLeft_succ (t : TxSession) (n : Nat) : t.bitsLeft (n + 1) = t.fieldBit n :: t.bitsLeft n := by
  simp [TxSession.bitsLeft, List.range_succ]

/-- The session when the last bit of its field has been driven, before the exit transition. -/
def TxSession.drained (t : TxSession) : TxSession := { t with stepIndex := 0, line := t.fieldBit 0 }

/-! ## One field -/

section
variable {s : State}

/-- One bit that is not its field's last. -/
theorem bit_sent {k : Nat} (hidle : s.tx.state ≠ .idle) (hwakeup : s.tx.state ≠ .wakeup) (hstep : s.tx.stepIndex = k + 2) :
    ∃ u, Ticks 1 s u (.setSignal (s.tx.fieldBit (k + 1)) :: s.tx.armRecurring s.cfg) ∧
      u.tx = { s.tx with stepIndex := k + 1, line := s.tx.fieldBit (k + 1) } :=
  ⟨_, Ticks.one (exec_txTick_of_tick (tick_within s.cfg hidle hwakeup hstep)), rfl⟩

/-- What the last bit of a field leaves in `t`, seen from a state `s` within the field. -/
structure FieldSent (s t : State) : Prop where
  tx : t.tx = s.tx.drained.exitTransition.1
  events : t.events = .setSignal (s.tx.fieldBit 0) :: s.tx.drained.exitTransition.2
  agents : ∃ trigger, t.agents =
    Agents.observeAll { txTrigger := trigger, rxTrigger := s.agents.rxTrigger, line := some (s.tx.fieldBit 0) }
      s.tx.drained.exitTransition.2

theorem FieldSent.of_bit {k : Nat} {lvl : Level} {u t : State} (h : FieldSent u t)
    (htx : u.tx = { s.tx with stepIndex := k, line := lvl }) (hrx : u.agents.rxTrigger = s.agents.rxTrigger) :
    FieldSent s t := by
  have hdrained : u.tx.drained = s.tx.drained := by rw [htx]; rfl
  have hbit : u.tx.fieldBit = s.tx.fieldBit := by rw [htx]; rfl
  obtain ⟨h1, h2, h3⟩ := h
  rw [hdrained] at h1 h2 h3
  rw [hbit] at h2 h3
  rw [hrx] at h3
  exact ⟨h1, h2, h3⟩

/-- The `n + 1` bits left of a field, past the request of the first preamble bit: they are driven in order, and the last
one takes the exit. -/
theorem field_sent {n : Nat} (hidle : s.tx.state ≠ .idle) (hwakeup : s.tx.state ≠ .wakeup)
    (hnotFirst : ¬(s.tx.state = .syncPreamble ∧ preambleLen ≤ s.tx.stepIndex)) (hstep : s.tx.stepIndex = n + 1) :
    ∃ t, Ticks (n + 1) s t ((s.tx.bitsLeft (n + 1)).map .setSignal ++ s.tx.drained.exitTransition.2) ∧
      FieldSent s t := by
  induction n generalizing s with
  | zero =>
    have hexec := exec_txTick_of_exit hidle hwakeup hstep rfl (es := s.tx.drained.exitTransition.2)
      (t := s.tx.drained.exitTransition.1) rfl
    exact ⟨_, Ticks.one hexec, rfl, rfl, _, rfl⟩
  | succ n ih =>
    have hother : ¬(s.tx.state = .syncPreamble ∧ s.tx.stepIndex = preambleLen) :=
      fun h => hnotFirst ⟨h.1, h.2.ge⟩
    obtain ⟨u, hbit, htx⟩ := bit_sent hidle hwakeup hstep
    rw [armRecurring_nil s.cfg hother] at hbit
    have hbits : u.tx.bitsLeft (n + 1) = s.tx.bitsLeft (n + 1) := by rw [htx]; rfl
    have hdrained : u.tx.drained = s.tx.drained := by rw [htx]; rfl
    obtain ⟨t, hrest, hsent⟩ := ih (s := u) (by rw [htx]; exact hidle) (by rw [htx]; exact hwakeup)
      (by rw [htx]; exact fun h => hnotFirst ⟨h.1, h.2.trans (by simp [hstep])⟩) (by rw [htx])
    refine ⟨t, ?_, hsent.of_bit htx hbit.rxTrigger⟩
    rw [hbits, hdrained] at hrest
    have hall := hbit.trans hrest
    rw [Nat.add_comm 1 (n + 1)] at hall
    rw [bitsLeft_succ]
    exact hall

/-! ## The five fields -/

/-- The bits of a field whose `V` is the register `v` are the register's, most significant first. -/
theorem bitsLeft_eq_bitsMsb {w : Nat} {t : TxSession} {v : BitVec w} (h : ∀ i, t.fieldBit i = v.getLsbD i) (n : Nat) :
    t.bitsLeft n = bitsMsb n v := by
  rw [TxSession.bitsLeft, funext h]
  rfl

/-- The first bit of the preamble asks for the recurring trigger; its other 35 are like any field's. -/
theorem preamble_sent (hstate : s.tx.state = .syncPreamble) (hstep : s.tx.stepIndex = 36) :
    ∃ t es, Ticks 36 s t es ∧ es.filterMap Event.level? = bitsMsb preambleLen preambleValue ∧
      es.filter (fun e => e.level?.isNone) = [.txSetRecurring (nominalBitUs s.cfg)] ∧
      t.tx = { s.tx with state := .startMarker, stepIndex := 12, line := false } := by
  have hidle : s.tx.state ≠ .idle := by simp [hstate]
  have hwakeup : s.tx.state ≠ .wakeup := by simp [hstate]
  obtain ⟨u, hfirst, htx⟩ := bit_sent hidle hwakeup hstep
  rw [armRecurring_first s.cfg hstate hstep] at hfirst
  have hexit : u.tx.drained.exitTransition =
      ({ s.tx with state := .startMarker, stepIndex := 12, line := s.tx.fieldBit 0 }, []) := by
    rw [htx]
    exact exitTransition_syncPreamble hstate
  have hbits : s.tx.fieldBit 35 :: u.tx.bitsLeft 35 = bitsMsb preambleLen preambleValue := by
    rw [htx]
    exact (bitsLeft_succ s.tx 35).symm.trans (bitsLeft_eq_bitsMsb (fieldBit_syncPreamble hstate) 36)
  obtain ⟨t, hrest, hsent⟩ := field_sent (n := 34) (s := u) (by rw [htx]; exact hidle) (by rw [htx]; exact hwakeup)
    (by rw [htx]; exact fun h => absurd h.2 (by decide : ¬ preambleLen ≤ 35)) (by rw [htx])
  have ht := hsent.tx
  rw [hexit] at hrest ht
  refine ⟨t, _, hfirst.trans hrest, ?_, ?_, ?_⟩
  · simpa [List.filterMap_cons] using hbits
  · simp [List.filter_cons]
  · rw [ht, fieldBit_syncPreamble hstate]
    rfl

/-- A field other than the preamble, with its register, its width and the field it hands over to. -/
theorem register_sent {w n : Nat} {v : BitVec w} {t' : TxSession} (hidle : s.tx.state ≠ .idle)
    (hwakeup : s.tx.state ≠ .wakeup) (hpreamble : s.tx.state ≠ .syncPreamble) (hstep : s.tx.stepIndex = n) (hn : 1 ≤ n)
    (hbit : ∀ i, s.tx.fieldBit i = v.getLsbD i) (hexit : s.tx.drained.exitTransition = (t', [])) :
    ∃ t, Ticks n s t ((bitsMsb n v).map .setSignal) ∧ t.tx = t' := by
  obtain ⟨k, rfl⟩ : ∃ k, n = k + 1 := ⟨n - 1, by omega⟩
  obtain ⟨t, hticks, hsent⟩ := field_sent hidle hwakeup (fun h => hpreamble h.1) hstep
  have ht := hsent.tx
  rw [hexit] at ht
  rw [hexit, bitsLeft_eq_bitsMsb hbit, List.append_nil] at hticks
  exact ⟨t, hticks, ht⟩

theorem marker_sent (hstate : s.tx.state = .startMarker) (hstep : s.tx.stepIndex = 12) :
    ∃ t, Ticks 12 s t ((bitsMsb markerLen markerValue).map .setSignal) ∧
      t.tx = { s.tx with state := .length, stepIndex := 7, line := s.tx.fieldBit 0 } :=
  register_sent (by simp [hstate]) (by simp [hstate]) (by simp [hstate]) hstep (by decide)
    (fieldBit_startMarker hstate) (exitTransition_startMarker hstate)

theorem length_sent (hstate : s.tx.state = .length) (hstep : s.tx.stepIndex = 7) (hlen : s.tx.length ≠ 0#7) :
    ∃ t, Ticks 7 s t ((bitsMsb 7 s.tx.length).map .setSignal) ∧
      t.tx = { s.tx with state := .payload, stepIndex := s.tx.length.toNat, line := s.tx.fieldBit 0 } :=
  register_sent (by simp [hstate]) (by simp [hstate]) (by simp [hstate]) hstep (by decide)
    (fieldBit_length hstate) (exitTransition_length hstate hlen)

theorem length_sent_zero (hstate : s.tx.state = .length) (hstep : s.tx.stepIndex = 7) (hlen : s.tx.length = 0#7) :
    ∃ t, Ticks 7 s t ((bitsMsb 7 s.tx.length).map .setSignal) ∧
      t.tx = { s.tx with state := .crc, stepIndex := 16, line := s.tx.fieldBit 0 } :=
  register_sent (by simp [hstate]) (by simp [hstate]) (by simp [hstate]) hstep (by decide)
    (fieldBit_length hstate) (exitTransition_length_zero hstate hlen)

theorem payload_sent (hstate : s.tx.state = .payload) (hstep : s.tx.stepIndex = s.tx.length.toNat)
    (hpos : 1 ≤ s.tx.length.toNat) :
    ∃ t, Ticks s.tx.length.toNat s t ((bitsMsb s.tx.length.toNat s.tx.payload).map .setSignal) ∧
      t.tx = { s.tx with state := .crc, stepIndex := 16, line := s.tx.fieldBit 0 } :=
  register_sent (by simp [hstate]) (by simp [hstate]) (by simp [hstate]) hstep hpos
    (fieldBit_payload hstate) (exitTransition_payload hstate)

/-- The CRC, the cancel and TX_COMPLETE. -/
theorem crc_sent (hstate : s.tx.state = .crc) (hstep : s.tx.stepIndex = 16) :
    ∃ t, Ticks 16 s t ((bitsMsb 16 s.tx.crc).map .setSignal ++ [.txCancelTrigger, .txComplete]) ∧
      t.tx = { s.tx with state := .idle, stepIndex := 0, line := s.tx.crc.getLsbD 0 } ∧
      t.events = [.setSignal (s.tx.crc.getLsbD 0), .txCancelTrigger, .txComplete] ∧
      t.agents = { txTrigger := .idle, rxTrigger := s.agents.rxTrigger, line := some (s.tx.crc.getLsbD 0) } := by
  have hexit : s.tx.drained.exitTransition =
      ({ s.tx with state := .idle, stepIndex := 0, line := s.tx.fieldBit 0 }, [.txCancelTrigger, .txComplete]) :=
    exitTransition_crc hstate
  obtain ⟨t, hticks, htx, hevents, trigger, hagents⟩ := field_sent (n := 15) (by simp [hstate]) (by simp [hstate])
    (by simp [hstate]) hstep
  rw [hexit, bitsLeft_eq_bitsMsb (fieldBit_crc hstate)] at hticks
  rw [hexit, fieldBit_crc hstate] at htx hevents hagents
  exact ⟨t, hticks, htx, hevents, hagents⟩

theorem bitsMsb_preamble : bitsMsb preambleLen preambleValue = (List.range 36).map (fun i => decide (i % 2 = 0)) := by
  decide

theorem bitsMsb_marker : bitsMsb markerLen markerValue =
    [true, false, true, false, false, false, true, true, true, false, false, true] := by decide

end

/-- Settles O21, field by field. -/
theorem fieldsAreSentMostSignificantBitFirst : Obligations.FieldsAreSentMostSignificantBitFirst := by
  unfold Obligations.FieldsAreSentMostSignificantBitFirst
  refine fun s => ⟨fun hstate hstep => ?_, fun hstate hstep => ?_, fun hstate hstep => ?_, fun hstate hstep hpos _ => ?_,
    fun hstate hstep => ?_⟩
  · obtain ⟨t, es, hticks, hlevels, hother, htx⟩ := preamble_sent hstate hstep
    exact ⟨t, es, hticks.run, hticks.history, hlevels.trans bitsMsb_preamble, hother, by rw [htx], by rw [htx],
      hticks.rcv⟩
  · obtain ⟨t, hticks, htx⟩ := marker_sent hstate hstep
    exact ⟨t, _, hticks.run, hticks.history, congrArg _ bitsMsb_marker, by rw [htx], by rw [htx], hticks.rcv⟩
  · by_cases hlen : s.tx.length = 0#7
    · obtain ⟨t, hticks, htx⟩ := length_sent_zero hstate hstep hlen
      exact ⟨t, _, hticks.run, hticks.history, rfl, fun h => absurd hlen h, fun _ => ⟨by rw [htx], by rw [htx]⟩,
        hticks.rcv⟩
    · obtain ⟨t, hticks, htx⟩ := length_sent hstate hstep hlen
      exact ⟨t, _, hticks.run, hticks.history, rfl, fun _ => ⟨by rw [htx], by rw [htx]⟩, fun h => absurd h hlen,
        hticks.rcv⟩
  · obtain ⟨t, hticks, htx⟩ := payload_sent hstate hstep hpos
    exact ⟨t, _, hticks.run, hticks.history, rfl, by rw [htx], by rw [htx], hticks.rcv⟩
  · obtain ⟨t, hticks, htx, -⟩ := crc_sent hstate hstep
    exact ⟨t, _, hticks.run, hticks.history, rfl, by rw [htx], by rw [htx], by rw [htx], hticks.rcv⟩

/-! ## A whole frame -/

section
variable {s : State}

/-- The length and the payload, which a length of 0 leaves out. -/
theorem message_sent (hstate : s.tx.state = .length) (hstep : s.tx.stepIndex = 7) :
    ∃ t lvl, Ticks (7 + s.tx.length.toNat) s t
        ((bitsMsb 7 s.tx.length ++ bitsMsb s.tx.length.toNat s.tx.payload).map .setSignal) ∧
      t.tx = { s.tx with state := .crc, stepIndex := 16, line := lvl } := by
  by_cases hlen : s.tx.length = 0#7
  · obtain ⟨t, hticks, htx⟩ := length_sent_zero hstate hstep hlen
    refine ⟨t, _, ?_, htx⟩
    have hzero : s.tx.length.toNat = 0 := by rw [hlen]; rfl
    rw [hzero]
    simpa [bitsMsb] using hticks
  · have hpos : 1 ≤ s.tx.length.toNat := Nat.one_le_iff_ne_zero.mpr fun h => hlen (BitVec.eq_of_toNat_eq h)
    obtain ⟨u, hlength, hu⟩ := length_sent hstate hstep hlen
    obtain ⟨t, hpayload, ht⟩ := payload_sent (s := u) (by rw [hu]) (by rw [hu]) (by rw [hu]; exact hpos)
    rw [hu] at hpayload ht
    refine ⟨t, _, ?_, ht⟩
    rw [List.map_append]
    exact hlength.trans hpayload

/-- From the entry of SYNC_PREAMBLE to the end of the frame. -/
theorem fields_sent (hstate : s.tx.state = .syncPreamble) (hstep : s.tx.stepIndex = 36) :
    ∃ t es, Ticks (71 + s.tx.length.toNat) s t es ∧
      es.filterMap Event.level? = frameBits s.tx.payload s.tx.length s.tx.crc ∧
      es.filter (fun e => e.level?.isNone) =
        [.txSetRecurring (nominalBitUs s.cfg), .txCancelTrigger, .txComplete] ∧
      t.events = [.setSignal (s.tx.crc.getLsbD 0), .txCancelTrigger, .txComplete] ∧
      t.tx = { s.tx with state := .idle, stepIndex := 0, line := s.tx.crc.getLsbD 0 } ∧
      t.agents = { txTrigger := .idle, rxTrigger := s.agents.rxTrigger, line := some (s.tx.crc.getLsbD 0) } := by
  obtain ⟨s1, es, hpreamble, hlevels, hother, h1⟩ := preamble_sent hstate hstep
  obtain ⟨s2, hmarker, h2⟩ := marker_sent (s := s1) (by rw [h1]) (by rw [h1])
  obtain ⟨s3, lvl, hmessage, h3⟩ := message_sent (s := s2) (by rw [h2]) (by rw [h2])
  obtain ⟨t, hcrc, ht, hevents, hagents⟩ := crc_sent (s := s3) (by rw [h3]) (by rw [h3])
  have hframe := hpreamble.trans (hmarker.trans (hmessage.trans hcrc))
  have hrx : s3.agents.rxTrigger = s.agents.rxTrigger := (hpreamble.trans (hmarker.trans hmessage)).rxTrigger
  rw [h3, h2, h1] at ht hevents hagents hframe
  simp only [hrx] at hagents
  have hcount : 36 + (12 + (7 + s.tx.length.toNat + 16)) = 71 + s.tx.length.toNat := by omega
  simp only [hcount] at hframe
  refine ⟨t, _, hframe, ?_, ?_, hevents, ht, hagents⟩
  · simp [hlevels, frameBits, lengthBits, crcBits, List.filterMap_cons]
  · simp [hother]

end

/-- Settles O24: TX_SEND and the TX_TICK of the second wakeup half, then the fields. -/
theorem aWholeFrameIsSent : Obligations.AWholeFrameIsSent := by
  unfold Obligations.AWholeFrameIsSent
  intro s payload len crc hidle hlen
  have hsend := txSendStartsTheWakeup s payload len crc hidle hlen
  generalize hs1 : s.after _ _ _ _ _ = s1 at hsend
  obtain ⟨h1tx, h1hist, h1cfg, h1rcv, h1rx⟩ : s1.tx = ⟨.wakeup, 1, payload, len, crc, true⟩ ∧
      s1.history = s.history ++ [.setSignal true, .txSetOneShot 500#32] ∧ s1.cfg = s.cfg ∧ s1.rcv = s.rcv ∧
      s1.agents.rxTrigger = s.agents.rxTrigger := by
    subst hs1
    exact ⟨rfl, rfl, rfl, rfl, rfl⟩
  have htick := Ticks.one (txTickDrivesTheSecondWakeupHalf s1 (by rw [h1tx]) (by rw [h1tx]))
  generalize hs2 : s1.after _ _ _ _ _ = s2 at htick
  obtain ⟨h2tx, h2events⟩ : s2.tx = ⟨.syncPreamble, 36, payload, len, crc, false⟩ ∧
      s2.events = [.setSignal false, .txSetOneShot 500#32] := by
    subst hs2
    exact ⟨by rw [h1tx]; rfl, rfl⟩
  obtain ⟨t, es, hfields, hlevels, hother, hevents, ht, hagents⟩ := fields_sent (s := s2) (by rw [h2tx]) (by rw [h2tx])
  have hticks := htick.trans hfields
  rw [h2tx] at hlevels hevents ht hagents hticks
  rw [h2events] at hticks
  have hcount : 1 + (71 + len.toNat) = 72 + len.toNat := by omega
  simp only [hcount] at hticks
  refine ⟨t, [.setSignal true, .txSetOneShot 500#32] ++ ([.setSignal false, .txSetOneShot 500#32] ++ es),
    (runCommands_cons hsend).trans hticks.run, ?_, ?_, ?_, hevents, ht, hticks.rcv.trans h1rcv,
    hticks.cfg.trans h1cfg, ?_⟩
  · rw [hticks.history, h1hist, List.append_assoc]
  · simp [hlevels, List.filterMap_cons]
  · simp [hother, htick.cfg, h1cfg, List.filter_cons]
  · rw [hagents, htick.rxTrigger, h1rx]

end Sys2Proof.Machine
end

section
/-! Numbers spelled by bits, most significant first (20_memory.md R82, R83), and from them the static correlator: a full
register is the number its samples spell, and so is the reference pattern (42_receive_framer.md R250 to R252). -/

namespace Sys2Proof.Machine

/-! ## The number a string of bits spells -/

/-- One more bit at the low end. -/
def pushBit (v : Nat) (b : Bool) : Nat := 2 * v + bitNat b

/-- A list that is not empty ends with some element. -/
theorem exists_concat {α : Type} {l : List α} (h : 1 ≤ l.length) : ∃ init a, l = init ++ [a] := by
  refine (List.eq_nil_or_concat' l).resolve_left fun hnil => ?_
  simp [hnil] at h

/-- The number a string of bits spells, most significant bit first. -/
def bitsNat (bits : List Bool) : Nat := bits.foldl pushBit 0

@[simp] theorem bitsNat_nil : bitsNat [] = 0 := rfl

theorem foldl_pushBit (v : Nat) (bits : List Bool) : bits.foldl pushBit v = v * 2 ^ bits.length + bitsNat bits := by
  induction bits generalizing v with
  | nil => simp
  | cons b bits ih =>
    rw [bitsNat, List.foldl_cons, List.foldl_cons, ih, ih (pushBit 0 b), List.length_cons, pushBit, pushBit]
    ring

theorem bitsNat_cons (b : Bool) (bits : List Bool) :
    bitsNat (b :: bits) = bitNat b * 2 ^ bits.length + bitsNat bits := by
  rw [bitsNat, List.foldl_cons, foldl_pushBit, pushBit, Nat.mul_zero, Nat.zero_add]

theorem bitsNat_append (bits bits' : List Bool) :
    bitsNat (bits ++ bits') = bitsNat bits * 2 ^ bits'.length + bitsNat bits' := by
  rw [bitsNat, List.foldl_append, foldl_pushBit]
  rfl

theorem bitsNat_concat (bits : List Bool) (b : Bool) : bitsNat (bits ++ [b]) = 2 * bitsNat bits + bitNat b := by
  rw [bitsNat, List.foldl_append]
  rfl

theorem bitsNat_lt (bits : List Bool) : bitsNat bits < 2 ^ bits.length := by
  induction bits with
  | nil => simp
  | cons b bits ih =>
    have hbit := Nat.mul_le_mul_right (2 ^ bits.length) (bitNat_le_one b)
    rw [bitsNat_cons, List.length_cons, pow_succ]
    omega

/-- Strings of one length that spell one number are the same. -/
theorem bitsNat_inj {bits bits' : List Bool} (hlength : bits.length = bits'.length)
    (h : bitsNat bits = bitsNat bits') : bits = bits' := by
  induction bits generalizing bits' with
  | nil => exact (List.length_eq_zero_iff.mp hlength.symm).symm
  | cons b bits ih =>
    cases bits' with
    | nil => cases hlength
    | cons b' bits' =>
      have htail : bits.length = bits'.length := Nat.succ.inj hlength
      have hlt := bitsNat_lt bits
      have hlt' := bitsNat_lt bits'
      rw [bitsNat_cons, bitsNat_cons, htail] at h
      rw [htail] at hlt
      cases b <;> cases b' <;> simp only [bitNat_true, bitNat_false] at h
      · rw [ih htail (by omega)]
      · omega
      · omega
      · rw [ih htail (by omega)]

/-- The low `w` bits of a register, in sending order, spell the register modulo `2^w`. -/
theorem bitsNat_bitsMsb {n : Nat} (w : Nat) (v : BitVec n) : bitsNat (bitsMsb w v) = v.toNat % 2 ^ w := by
  induction w with
  | zero => simp [bitsMsb, Nat.mod_one]
  | succ w ih =>
    have hcons : bitsMsb (w + 1) v = v.getLsbD w :: bitsMsb w v := by simp [bitsMsb, List.range_succ]
    have hlength : (bitsMsb w v).length = w := by simp [bitsMsb]
    rw [hcons, bitsNat_cons, hlength, ih, Nat.mod_pow_succ, ← Nat.toNat_testBit, BitVec.getLsbD]
    cases v.toNat.testBit w <;> simp [Nat.add_comm]

@[simp] theorem length_bitsMsb {n : Nat} (w : Nat) (v : BitVec n) : (bitsMsb w v).length = w := by simp [bitsMsb]

/-! ## Shifting bits into a register -/

/-- A register that shifts bits in holds what they spell below what it held, modulo its width. -/
theorem foldl_shiftInNat_mod (w v : Nat) (bits : List Bool) :
    bits.foldl (shiftInNat w) v % 2 ^ w = (v * 2 ^ bits.length + bitsNat bits) % 2 ^ w := by
  induction bits generalizing v with
  | nil => simp
  | cons b bits ih =>
    have hshift : shiftInNat w v b * 2 ^ bits.length + bitsNat bits ≡
        (2 * v + bitNat b) * 2 ^ bits.length + bitsNat bits [MOD 2 ^ w] :=
      ((Nat.mod_modEq _ _).mul_right _).add_right _
    rw [List.foldl_cons, ih, hshift, List.length_cons, bitsNat_cons]
    ring_nf

/-- A register filled to its width holds what its bits spell, whatever it held before. -/
theorem foldl_shiftInNat_full {w : Nat} (hw : 1 ≤ w) (v : Nat) {bits : List Bool} (hlength : bits.length = w) :
    bits.foldl (shiftInNat w) v = bitsNat bits := by
  have hlt : bits.foldl (shiftInNat w) v < 2 ^ w := by
    obtain ⟨init, b, rfl⟩ := exists_concat (by omega : 1 ≤ bits.length)
    rw [List.foldl_append]
    exact shiftInNat_lt _ _ _
  have hbits := bitsNat_lt bits
  have hmod := foldl_shiftInNat_mod w v bits
  rw [hlength] at hmod hbits
  rwa [Nat.mod_eq_of_lt hlt, Nat.mul_add_mod_self_right, Nat.mod_eq_of_lt hbits] at hmod

/-! ## The reference pattern (R250) -/

theorem repeatBit_eq (p : Bool) (n acc : Nat) : repeatBit p n acc = (List.replicate n p).foldl pushBit acc := by
  induction n generalizing acc with
  | zero => rfl
  | succ n ih =>
    rw [repeatBit, ih]
    rfl

theorem referenceFrom_eq (n left i acc : Nat) : referenceFrom n left i acc =
    ((List.range' i left).flatMap fun j => List.replicate n (preambleValue.getLsbD (35 - j))).foldl pushBit acc := by
  induction left generalizing i acc with
  | zero => rfl
  | succ left ih =>
    rw [referenceFrom, ih, repeatBit_eq, List.range'_succ, List.flatMap_cons, List.foldl_append]

/-- The oversampled preamble: `K` groups of `N` equal levels, alternating from a high one. -/
def oversampledPreamble (c : Config) : List Level :=
  (List.range c.params.k).flatMap fun i => List.replicate c.params.n (decide (i % 2 = 0))

theorem reference_eq (c : Config) : reference c = bitsNat (oversampledPreamble c) := by
  obtain ⟨-, -, -, -, -, hk, -⟩ := Config.facts c
  rw [reference, referenceFrom_eq, ← List.range_eq_range', bitsNat, oversampledPreamble]
  congr 1
  refine List.flatMap_congr fun i hi => ?_
  have hlt : i < c.params.k := List.mem_range.mp hi
  have hodd : (35 - i) % 2 = 1 ↔ i % 2 = 0 := by omega
  rw [getLsbD_preambleValue (by omega)]
  simp only [hodd]

@[simp] theorem length_oversampledPreamble (c : Config) :
    (oversampledPreamble c).length = c.params.k * c.params.n := by
  simp [oversampledPreamble]

theorem one_le_correlatorWidth (c : Config) : 1 ≤ correlatorWidth c := by
  obtain ⟨hn, -, -, -, hk, -⟩ := Config.facts c
  have hkn : 2 * 3 ≤ c.params.k * c.params.n := Nat.mul_le_mul hk hn
  unfold correlatorWidth
  omega

/-- Settles O30: after `W` samples the register is the number they spell, and only the pattern spells the reference. -/
theorem correlatorMatchesOnlyTheOversampledPreamble : Obligations.CorrelatorMatchesOnlyTheOversampledPreamble := by
  unfold Obligations.CorrelatorMatchesOnlyTheOversampledPreamble
  intro c before ls hlength
  rw [foldl_shiftInNat_full (one_le_correlatorWidth c) before hlength, reference_eq]
  refine ⟨fun h => ?_, fun h => congrArg bitsNat h⟩
  exact bitsNat_inj (hlength.trans (length_oversampledPreamble c).symm) h

end Sys2Proof.Machine
end

section
/-! The majority vote over one bit cell (41_bit_demodulator.md R201 to R207): the two discarded slots carry no weight, and
the samples between them are counted by level. -/

namespace Sys2Proof.Machine

variable {c : Config} {d : Demod} {last : Bool}

/-- The tally of a level. -/
def Demod.count (d : Demod) (b : Bool) : Nat := if b then d.highCount else d.lowCount

theorem demodRun_append (ls ms : List Level) (d : Demod) (v : Verdict) :
    demodRun c (ls ++ ms) d v = demodRun c ms (demodRun c ls d v).1 (demodRun c ls d v).2 := by
  induction ls generalizing d v with
  | nil => rfl
  | cons l ls ih => exact ih _ _

/-- The samples of inner slots add to the tallies of their levels. -/
theorem demodRun_inner {ls : List Level} (hone : 1 ≤ d.slot) (hinner : d.slot + ls.length + 1 ≤ c.params.n) :
    demodRun c ls d .none =
      ({ d with lowCount := d.lowCount + ls.count false, highCount := d.highCount + ls.count true,
                slot := d.slot + ls.length }, .none) := by
  induction ls generalizing d with
  | nil => rfl
  | cons l ls ih =>
    rw [List.length_cons] at hinner
    rw [demodRun, sample_innerSlot l hone (by omega)]
    cases l with
    | false =>
      rw [tally_low, ih (by simp) (by simp only; omega)]
      simp [Nat.add_assoc, Nat.add_comm 1]
    | true =>
      rw [tally_high, ih (by simp) (by simp only; omega)]
      simp [Nat.add_assoc, Nat.add_comm 1]

/-- The demodulator before the last slot of a cell whose inner samples are `inner`. -/
def Demod.beforeLast (inner : List Level) (last : Bool) : Demod where
  lowCount := inner.count false
  highCount := inner.count true
  slot := inner.length + 1
  lastBit := last

theorem demodRun_cell {first final : Level} {inner : List Level} (hlength : inner.length + 2 = c.params.n) :
    demodRun c (first :: (inner ++ [final])) ⟨0, 0, 0, last⟩ .none =
      (Demod.beforeLast inner last).sample c final := by
  have hinner : demodRun c inner ⟨0, 0, 1, last⟩ .none = (Demod.beforeLast inner last, .none) := by
    rw [demodRun_inner (le_refl 1) (by simp only; omega)]
    simp [Demod.beforeLast, Nat.add_comm]
  rw [demodRun, sample_firstSlot first rfl, demodRun_append]
  simp only [hinner]
  rfl

theorem count_beforeLast (inner : List Level) (last b : Bool) : (Demod.beforeLast inner last).count b = inner.count b := by
  cases b <;> rfl

theorem count_add_count_not (inner : List Level) (b : Bool) : inner.count b + inner.count (!b) = inner.length := by
  cases b with
  | true => exact List.count_true_add_count_false inner
  | false => exact List.count_false_add_count_true inner

theorem inv_beforeLast {inner : List Level} (hlength : inner.length + 2 = c.params.n) (last : Bool) :
    (Demod.beforeLast inner last).Inv c := by
  have hall := count_add_count_not inner false
  refine ⟨?_, hall⟩
  show inner.length + 1 < c.params.n
  omega

/-- A level whose tally has reached `T` before the last slot is decided. -/
theorem decides_of_count {b : Bool} (hinv : d.Inv c) (hslot : d.slot + 1 = c.params.n) (h : threshold c ≤ d.count b) :
    d.decides c b := by
  cases b with
  | true => exact decides_high hslot h
  | false => exact decides_low hinv hslot h

theorem sample_beforeLast_decides {inner : List Level} {b : Bool} (hlength : inner.length + 2 = c.params.n)
    (h : threshold c ≤ inner.count b) (final : Level) :
    (Demod.beforeLast inner last).sample c final = (⟨0, 0, 0, b⟩, .bit b) :=
  sample_decides c (decides_of_count (inv_beforeLast hlength last) (by simp [Demod.beforeLast, ← hlength])
    (by rwa [count_beforeLast])) final

theorem sample_beforeLast_faults {inner : List Level} (v : Bool) (hlength : inner.length + 2 = c.params.n)
    (h : inner.count v < threshold c) (h' : inner.count (!v) < threshold c) (final : Level) :
    (Demod.beforeLast inner last).sample c final = (⟨0, 0, 0, last⟩, .fault) := by
  have hslot : (Demod.beforeLast inner last).slot + 1 = c.params.n := by simp [Demod.beforeLast, ← hlength]
  cases v with
  | true => exact sample_faults final hslot h h'
  | false => exact sample_faults final hslot h' h

/-- A cell is its two outer samples and the `N - 2` between them. -/
theorem cell_eq {cell : List Level} (hlength : cell.length = c.params.n) :
    ∃ first inner final, cell = first :: (inner ++ [final]) ∧ inner.length + 2 = c.params.n ∧
      (cell.drop 1).take (c.params.n - 2) = inner := by
  obtain ⟨hn, -⟩ := Config.facts c
  cases cell with
  | nil => simp at hlength; omega
  | cons first rest =>
    obtain ⟨inner, final, rfl⟩ := exists_concat (l := rest) (by rw [List.length_cons] at hlength; omega)
    have hinner : inner.length + 2 = c.params.n := by simpa using hlength
    refine ⟨first, inner, final, rfl, hinner, ?_⟩
    have htake : c.params.n - 2 = inner.length := by omega
    rw [htake]
    simp

theorem countP_ne_eq_count_not (inner : List Level) (v : Bool) : inner.countP (fun l => l != v) = inner.count (!v) := by
  refine List.countP_congr fun l _ => ?_
  cases l <;> cases v <;> simp

/-- Settles O34: `k` of the `N - 2` samples tallied are of the other level, and the level whose tally reaches `T` is
decided. -/
theorem majorityVoteOfABitCell : Obligations.MajorityVoteOfABitCell := by
  unfold Obligations.MajorityVoteOfABitCell
  intro c v last cell k hlength hk
  obtain ⟨hn, hst, -⟩ := Config.facts c
  obtain ⟨first, inner, final, rfl, hinner, hmiddle⟩ := cell_eq hlength
  rw [hmiddle, countP_ne_eq_count_not] at hk
  have hall := count_add_count_not inner v
  rw [demodRun_cell hinner]
  refine ⟨fun hfew => ?_, fun hmore hfewer => ?_, fun hmany => ?_⟩
  · exact sample_beforeLast_decides hinner (by unfold threshold; omega) final
  · exact sample_beforeLast_faults v hinner (by unfold threshold; omega) (by unfold threshold; omega) final
  · exact sample_beforeLast_decides hinner (by unfold threshold; omega) final

end Sys2Proof.Machine
end

section
/-! The framer over strings of recovered bits (42_receive_framer.md R260 to R271): the marker search, and the length, the
payload and the CRC put together again. The bits come from bit cells, which write the demodulator, or from `framerRun`,
which leaves it alone; so the demodulator is rewritten here by any function of the bit. -/

namespace Sys2Proof.Machine

/-! ## Strings of bits -/

/-- Successive bits of `rx_framer_bit`, before each of which `pre` rewrites the demodulator. -/
def bitRun (c : Config) (pre : Bool → Demod → Demod) : List Bool → Receiver → List Event → Receiver × List Event
  | [], r, es => (r, es)
  | b :: bs, r, es =>
    let p := Receiver.framerBit c { r with dm := pre b r.dm } b
    bitRun c pre bs p.1 (es ++ p.2)

/-- The demodulator after a string of bits that ends no frame. -/
def dmAfter (pre : Bool → Demod → Demod) (bits : List Bool) (d : Demod) : Demod := bits.foldl (fun d b => pre b d) d

variable {c : Config} {pre : Bool → Demod → Demod} {r : Receiver} {es : List Event}

/-- A run that leaves the demodulator alone is the model's own `framerRun`. -/
theorem bitRun_id (bits : List Bool) (r : Receiver) (es : List Event) :
    bitRun c (fun _ d => d) bits r es = framerRun c bits r es := by
  induction bits generalizing r es with
  | nil => rfl
  | cons b bits ih => exact ih _ _

theorem dmAfter_id (bits : List Bool) (d : Demod) : dmAfter (fun _ d => d) bits d = d := List.foldl_fixed bits

theorem dmAfter_concat (bits : List Bool) (b : Bool) (d : Demod) :
    dmAfter pre (bits ++ [b]) d = pre b (dmAfter pre bits d) := by
  simp [dmAfter]

/-- A run that goes on where another ended. -/
theorem bitRun_append {bits bits' : List Bool} {r' : Receiver} {es' : List Event}
    (h : bitRun c pre bits r es = (r', es')) : bitRun c pre (bits ++ bits') r es = bitRun c pre bits' r' es' := by
  induction bits generalizing r es with
  | nil =>
    cases h
    rfl
  | cons b bits ih => exact ih h

/-- One more bit. -/
theorem bitRun_concat {bits : List Bool} {b : Bool} {r' r'' : Receiver} {es' es'' : List Event}
    (h : bitRun c pre bits r es = (r', es'))
    (hbit : Receiver.framerBit c { r' with dm := pre b r'.dm } b = (r'', es'')) :
    bitRun c pre (bits ++ [b]) r es = (r'', es' ++ es'') := by
  rw [bitRun_append h, bitRun, hbit]
  rfl

/-- One more bit without an event. -/
theorem bitRun_concat_quiet {bits : List Bool} {b : Bool} {r' r'' : Receiver} {es' : List Event}
    (h : bitRun c pre bits r es = (r', es'))
    (hbit : Receiver.framerBit c { r' with dm := pre b r'.dm } b = (r'', [])) :
    bitRun c pre (bits ++ [b]) r es = (r'', es') :=
  (bitRun_concat h hbit).trans (by rw [List.append_nil])

theorem bitRun_events (bits : List Bool) (r : Receiver) (es : List Event) :
    ∃ fs, (bitRun c pre bits r es).2 = es ++ fs := by
  induction bits generalizing r es with
  | nil => exact ⟨[], (List.append_nil es).symm⟩
  | cons b bits ih =>
    obtain ⟨fs, hfs⟩ := ih (Receiver.framerBit c { r with dm := pre b r.dm } b).1
      (es ++ (Receiver.framerBit c { r with dm := pre b r.dm } b).2)
    exact ⟨_, hfs.trans (List.append_assoc _ _ _)⟩

/-- In a silent run the first bit is silent, and so is the rest. -/
theorem bitRun_quiet_cons {b : Bool} {bits : List Bool} {r' : Receiver} (h : bitRun c pre (b :: bits) r es = (r', es)) :
    (Receiver.framerBit c { r with dm := pre b r.dm } b).2 = [] ∧
      bitRun c pre bits (Receiver.framerBit c { r with dm := pre b r.dm } b).1 es = (r', es) := by
  rw [bitRun] at h
  have hfirst : (Receiver.framerBit c { r with dm := pre b r.dm } b).2 = [] := by
    obtain ⟨fs, hfs⟩ := bitRun_events (c := c) (pre := pre) bits
      (Receiver.framerBit c { r with dm := pre b r.dm } b).1
      (es ++ (Receiver.framerBit c { r with dm := pre b r.dm } b).2)
    rw [h, List.append_assoc, List.self_eq_append_right] at hfs
    exact (List.append_eq_nil_iff.mp hfs).1
  rw [hfirst, List.append_nil] at h
  exact ⟨hfirst, h⟩

/-! ## The marker search (R261, R262, R271) -/

/-- The marker, as it is sent. -/
def markerPattern : List Bool := [true, false, true, false, false, false, true, true, true, false, false, true]

/-- The marker ends with bit number `n` of the string. -/
def MarkerEndsAt (bits : List Bool) (n : Nat) : Prop := 12 ≤ n ∧ (bits.take n).drop (n - 12) = markerPattern

/-- The 12-bit window after `n` bits. -/
def window (bits : List Bool) (n : Nat) : Nat := bitsNat (bits.take n) % 2 ^ 12

theorem window_lt (bits : List Bool) (n : Nat) : window bits n < 2 ^ 12 := Nat.mod_lt _ (by decide)

/-- The window holds the marker exactly when the marker's twelve bits were the last. -/
theorem window_eq_marker {bits : List Bool} {n : Nat} (hn : n ≤ bits.length) :
    window bits n = 0xA39 ↔ MarkerEndsAt bits n := by
  have hlength : (bits.take n).length = n := List.length_take_of_le hn
  by_cases hlong : 12 ≤ n
  · have htail : ((bits.take n).drop (n - 12)).length = 12 := by rw [List.length_drop, hlength]; omega
    have hlt := bitsNat_lt ((bits.take n).drop (n - 12))
    have hsplit : bitsNat (bits.take n) =
        bitsNat ((bits.take n).take (n - 12)) * 2 ^ 12 + bitsNat ((bits.take n).drop (n - 12)) := by
      conv_lhs => rw [← List.take_append_drop (n - 12) (bits.take n)]
      rw [bitsNat_append, htail]
    have hwindow : window bits n = bitsNat ((bits.take n).drop (n - 12)) := by
      rw [htail] at hlt
      rw [window, hsplit, Nat.mul_add_mod_self_right, Nat.mod_eq_of_lt hlt]
    rw [hwindow]
    refine ⟨fun h => ⟨hlong, ?_⟩, fun h => by rw [h.2]; decide⟩
    exact bitsNat_inj htail h
  · refine iff_of_false ?_ fun h => hlong h.1
    have hlt := bitsNat_lt (bits.take n)
    rw [hlength] at hlt
    have hsmall : 2 ^ n ≤ 2 ^ 11 := Nat.pow_le_pow_right (by decide) (by omega)
    rw [window, Nat.mod_eq_of_lt (by omega)]
    omega

/-- The window takes the next bit as the accumulator of WAIT_START does. -/
theorem shiftIn_window {bits : List Bool} {n : Nat} (hn : n < bits.length) :
    shiftInNat 12 (BitVec.ofNat 64 (window bits n)).toNat bits[n] = window bits (n + 1) := by
  have hlt := window_lt bits n
  rw [BitVec.toNat_ofNat, Nat.mod_eq_of_lt (by omega), window, window, List.take_succ_eq_append_getElem hn,
    bitsNat_concat, shiftInNat]
  omega

/-- The receiver searching for the marker after `n` bits. -/
def Receiver.searching (r : Receiver) (bits : List Bool) (n : Nat) (d : Demod) : Receiver :=
  { r with rx := { r.rx with buffer := BitVec.ofNat 64 (window bits n), bitIndex := n }, dm := d }

theorem searching_zero (hbuffer : r.rx.buffer = 0#64) (hindex : r.rx.bitIndex = 0) (bits : List Bool) :
    r.searching bits 0 r.dm = r := by
  obtain ⟨⟨_, buffer, index, _, _, _, _, _⟩, _, _, _⟩ := r
  obtain rfl : buffer = 0#64 := hbuffer
  obtain rfl : index = 0 := hindex
  rfl

/-- While the marker has not come and 49 bits have not passed, the search goes on in silence. -/
theorem bitRun_search {bits : List Bool} {n : Nat} (hstate : r.rx.state = .waitStart) (hbuffer : r.rx.buffer = 0#64)
    (hindex : r.rx.bitIndex = 0) (hn : n ≤ bits.length) (h48 : n ≤ 48) (hno : ∀ m ≤ n, ¬ MarkerEndsAt bits m) :
    bitRun c pre (bits.take n) r es = (r.searching bits n (dmAfter pre (bits.take n) r.dm), es) := by
  induction n with
  | zero => exact Prod.ext (searching_zero hbuffer hindex bits).symm rfl
  | succ n ih =>
    have hprev := ih (Nat.le_of_succ_le hn) (Nat.le_of_succ_le h48) fun m hm => hno m (Nat.le_succ_of_le hm)
    have hmiss : shiftInNat 12 (BitVec.ofNat 64 (window bits n)).toNat bits[n] ≠ 0xA39 := by
      rw [shiftIn_window hn, Ne, window_eq_marker hn]
      exact hno (n + 1) (le_refl _)
    have hbit := Eq.trans (framerBit_waitStart (b := bits[n])
      (r := r.searching bits n (pre bits[n] (dmAfter pre (bits.take n) r.dm))) c hstate) (waitStartBit_more c hmiss h48)
    rw [List.take_succ_eq_append_getElem hn, bitRun_concat_quiet hprev hbit, dmAfter_concat]
    simp only [Receiver.searching, RxFramer.take, shiftIn, shiftIn_window hn]

/-- The first twelve bits in a row that read as the marker move to READ_LENGTH. -/
theorem bitRun_marker {bits : List Bool} (hstate : r.rx.state = .waitStart) (hbuffer : r.rx.buffer = 0#64)
    (hindex : r.rx.bitIndex = 0) (h49 : bits.length ≤ 49) (hno : ∀ m < bits.length, ¬ MarkerEndsAt bits m)
    (hends : MarkerEndsAt bits bits.length) :
    bitRun c pre bits r es =
      ({ r with rx := { r.rx with state := .readLength, buffer := 0#64, bitIndex := 0 },
                dm := dmAfter pre bits r.dm }, es) := by
  obtain ⟨n, hn⟩ : ∃ n, bits.length = n + 1 := ⟨bits.length - 1, by have := hends.1; omega⟩
  have hlt : n < bits.length := by omega
  have hprev := bitRun_search (c := c) (pre := pre) (es := es) hstate hbuffer hindex hlt.le (by omega)
    fun m hm => hno m (by omega)
  have hmatch : shiftInNat 12 (BitVec.ofNat 64 (window bits n)).toNat bits[n] = 0xA39 := by
    rw [shiftIn_window hlt, window_eq_marker hlt]
    rwa [hn] at hends
  have hbits : bits = bits.take n ++ [bits[n]] := by
    rw [← List.take_succ_eq_append_getElem hlt, List.take_of_length_le hn.le]
  have hbit := Eq.trans (framerBit_waitStart (b := bits[n])
    (r := r.searching bits n (pre bits[n] (dmAfter pre (bits.take n) r.dm))) c hstate) (waitStartBit_match c hmatch)
  rw [hbits, dmAfter_concat]
  exact bitRun_concat_quiet hprev hbit

/-- Forty-nine bits without the marker lose synchronization. -/
theorem bitRun_lost {bits : List Bool} (hstate : r.rx.state = .waitStart) (hbuffer : r.rx.buffer = 0#64)
    (hindex : r.rx.bitIndex = 0) (h49 : bits.length = 49) (hno : ∀ m ≤ bits.length, ¬ MarkerEndsAt bits m) :
    bitRun c pre bits r es = (.freshHunt c r.rx.syncAttached,
      es ++ [.fault .syncLost, .rxCancelTrigger, .rxSetRecurring (nominalSampleUs c)]) := by
  have hlt : 48 < bits.length := by omega
  have hprev := bitRun_search (c := c) (pre := pre) (es := es) hstate hbuffer hindex hlt.le (le_refl 48)
    fun m hm => hno m (by omega)
  have hmiss : shiftInNat 12 (BitVec.ofNat 64 (window bits 48)).toNat bits[48] ≠ 0xA39 := by
    rw [shiftIn_window hlt, Ne, window_eq_marker hlt]
    exact hno 49 (by omega)
  have hbits : bits = bits.take 48 ++ [bits[48]] := by
    rw [← List.take_succ_eq_append_getElem hlt, List.take_of_length_le h49.le]
  have hbit := Eq.trans (framerBit_waitStart (b := bits[48])
    (r := r.searching bits 48 (pre bits[48] (dmAfter pre (bits.take 48) r.dm))) c hstate)
    (waitStartBit_lost c hmiss (le_refl 48))
  rw [hbits]
  exact bitRun_concat hprev hbit

/-- Settles O39: the window holds the last twelve bits, so the search ends where they are the marker. -/
theorem theMarkerIsTakenAtItsFirstOccurrence : Obligations.TheMarkerIsTakenAtItsFirstOccurrence := by
  unfold Obligations.TheMarkerIsTakenAtItsFirstOccurrence
  intro c r bits endsAt hstate hbuffer hindex h49 hends hfirst
  obtain rfl : endsAt = MarkerEndsAt bits := funext fun n => propext (hends n)
  rw [← bitRun_id]
  refine ⟨fun hmatch => ?_, fun hmiss hlength => ?_⟩
  · rw [bitRun_marker hstate hbuffer hindex h49 hfirst hmatch, dmAfter_id]
  · refine bitRun_lost hstate hbuffer hindex hlength fun m hm => ?_
    obtain hlt | rfl := Nat.lt_or_eq_of_le hm
    · exact hfirst m hlt
    · exact hmiss

/-! ## The fields (R263 to R268) -/

/-- The accumulator after bits that fit it. -/
theorem shiftIn_bitsNat {w : Nat} {bits : List Bool} {b : Bool} (hw : w ≤ 64) (h : bits.length < w) :
    shiftIn w (BitVec.ofNat 64 (bitsNat bits)) b = BitVec.ofNat 64 (bitsNat (bits ++ [b])) := by
  have hlt := bitsNat_lt bits
  have hpow : 2 * 2 ^ bits.length ≤ 2 ^ w := by
    rw [← pow_succ']
    exact Nat.pow_le_pow_right (by decide) h
  have hpow' : 2 ^ w ≤ 2 ^ 64 := Nat.pow_le_pow_right (by decide) hw
  rw [shiftIn, BitVec.toNat_ofNat, Nat.mod_eq_of_lt (by omega), shiftInNat_eq b (by omega), bitsNat_concat]

/-- The receiver after some bits of a field that it does not end. -/
def Receiver.collected (r : Receiver) (bits : List Bool) (d : Demod) : Receiver :=
  { r with rx := { r.rx with buffer := BitVec.ofNat 64 (bitsNat bits), bitIndex := bits.length }, dm := d }

theorem collected_nil (hbuffer : r.rx.buffer = 0#64) (hindex : r.rx.bitIndex = 0) : r.collected [] r.dm = r := by
  obtain ⟨⟨_, buffer, index, _, _, _, _, _⟩, _, _, _⟩ := r
  obtain rfl : buffer = 0#64 := hbuffer
  obtain rfl : index = 0 := hindex
  rfl

/-- Bits that do not end their field are taken into the accumulator in silence. `limit` is the field's width, and `hmore`
what its rule does with a bit before the last. -/
theorem bitRun_field {w limit : Nat} {bits : List Bool} (hw : w ≤ 64) (hlimit : limit ≤ w)
    (hmore : ∀ (bits' : List Bool) (b : Bool) (d : Demod), bits'.length + 1 < limit →
      (r.collected bits' d).framerBit c b = ({ r.collected bits' d with rx := (r.collected bits' d).rx.take w b }, []))
    (hbuffer : r.rx.buffer = 0#64) (hindex : r.rx.bitIndex = 0) (h : bits.length < limit) :
    bitRun c pre bits r es = (r.collected bits (dmAfter pre bits r.dm), es) := by
  induction bits using List.reverseRecOn with
  | nil => exact Prod.ext (collected_nil hbuffer hindex).symm rfl
  | append_singleton bits b ih =>
    rw [List.length_append, List.length_singleton] at h
    have hshift : shiftIn w (BitVec.ofNat 64 (bitsNat bits)) b = BitVec.ofNat 64 (bitsNat (bits ++ [b])) :=
      shiftIn_bitsNat hw (by omega)
    have hbit := hmore bits b (pre b (dmAfter pre bits r.dm)) h
    rw [bitRun_concat_quiet (ih (by omega)) hbit, dmAfter_concat]
    simp [Receiver.collected, RxFramer.take, hshift]

/-- The first six bits of a length are taken in silence. -/
theorem bitRun_length_init {init : List Bool} (hstate : r.rx.state = .readLength) (hbuffer : r.rx.buffer = 0#64)
    (hindex : r.rx.bitIndex = 0) (hinit : init.length + 1 = 7) :
    bitRun c pre init r es = (r.collected init (dmAfter pre init r.dm), es) := by
  refine bitRun_field (w := 64) (limit := 7) (le_refl _) (by decide) (fun bits b d h => ?_) hbuffer hindex (by omega)
  have hnot : bits.length + 1 ≠ 7 := by omega
  exact Eq.trans (framerBit_readLength (r := r.collected bits d) c hstate) (readLengthBit_more c hnot)

/-- The seven bits of a length of 0 lead to READ_CRC. -/
theorem bitRun_length_zero {bits : List Bool} (hstate : r.rx.state = .readLength) (hbuffer : r.rx.buffer = 0#64)
    (hindex : r.rx.bitIndex = 0) (hlength : bits.length = 7) (hv : bitsNat bits = 0) :
    bitRun c pre bits r es =
      ({ r with rx := { r.rx with state := .readCrc, length := 0#7, payload := 0#64, buffer := 0#64, bitIndex := 0 },
                dm := dmAfter pre bits r.dm }, es) := by
  obtain ⟨init, b, rfl⟩ := exists_concat (by omega : 1 ≤ bits.length)
  have hinit : init.length + 1 = 7 := by simpa using hlength
  have hvalue : (shiftIn 64 (BitVec.ofNat 64 (bitsNat init)) b).toNat = 0 := by
    rw [shiftIn_bitsNat (le_refl _) (by omega), hv]
    rfl
  have hbit := Eq.trans (framerBit_readLength (b := b) (r := r.collected init (pre b (dmAfter pre init r.dm))) c hstate)
    (readLengthBit_zero c hinit hvalue)
  rw [dmAfter_concat]
  exact bitRun_concat_quiet (bitRun_length_init hstate hbuffer hindex hinit) hbit

/-- The seven bits of a length of 1 to 64 lead to READ_PAYLOAD. -/
theorem bitRun_length {bits : List Bool} (hstate : r.rx.state = .readLength) (hbuffer : r.rx.buffer = 0#64)
    (hindex : r.rx.bitIndex = 0) (hlength : bits.length = 7) (hpos : 1 ≤ bitsNat bits) (hle : bitsNat bits ≤ 64) :
    bitRun c pre bits r es =
      ({ r with rx := { r.rx with state := .readPayload, length := BitVec.ofNat 7 (bitsNat bits), buffer := 0#64,
                                  bitIndex := 0 },
                dm := dmAfter pre bits r.dm }, es) := by
  obtain ⟨init, b, rfl⟩ := exists_concat (by omega : 1 ≤ bits.length)
  have hinit : init.length + 1 = 7 := by simpa using hlength
  have hvalue : (shiftIn 64 (BitVec.ofNat 64 (bitsNat init)) b).toNat = bitsNat (init ++ [b]) := by
    rw [shiftIn_bitsNat (le_refl _) (by omega), BitVec.toNat_ofNat, Nat.mod_eq_of_lt (by omega)]
  have hstored : (shiftIn 64 (BitVec.ofNat 64 (bitsNat init)) b).setWidth 7 = BitVec.ofNat 7 (bitsNat (init ++ [b])) := by
    rw [← hvalue, BitVec.ofNat_toNat]
  have hbit := Eq.trans (framerBit_readLength (b := b) (r := r.collected init (pre b (dmAfter pre init r.dm))) c hstate)
    (readLengthBit_stores c hinit (hpos.trans_eq hvalue.symm) (hvalue.trans_le hle))
  rw [dmAfter_concat, ← hstored]
  exact bitRun_concat_quiet (bitRun_length_init hstate hbuffer hindex hinit) hbit

/-- As many bits as the length says lead to READ_CRC with the payload they spell. -/
theorem bitRun_payload {bits : List Bool} (hstate : r.rx.state = .readPayload) (hbuffer : r.rx.buffer = 0#64)
    (hindex : r.rx.bitIndex = 0) (hlength : bits.length = r.rx.length.toNat) (hpos : 1 ≤ bits.length)
    (hle : bits.length ≤ 64) :
    bitRun c pre bits r es =
      ({ r with rx := { r.rx with state := .readCrc, payload := BitVec.ofNat 64 (bitsNat bits), buffer := 0#64,
                                  bitIndex := 0 },
                dm := dmAfter pre bits r.dm }, es) := by
  obtain ⟨init, b, rfl⟩ := exists_concat hpos
  have hinit : init.length + 1 = r.rx.length.toNat := by simpa using hlength
  have hmore : bitRun c pre init r es = (r.collected init (dmAfter pre init r.dm), es) := by
    refine bitRun_field (w := 64) (limit := r.rx.length.toNat) (le_refl _) (by omega) (fun bits b d h => ?_) hbuffer
      hindex (by omega)
    have hnot : bits.length + 1 ≠ r.rx.length.toNat := by omega
    exact Eq.trans (framerBit_readPayload (r := r.collected bits d) c hstate) (readPayloadBit_more hnot)
  have hbit := Eq.trans (framerBit_readPayload (b := b) (r := r.collected init (pre b (dmAfter pre init r.dm))) c hstate)
    (readPayloadBit_done hinit)
  rw [dmAfter_concat, ← shiftIn_bitsNat (w := 64) (le_refl _) (by omega)]
  exact bitRun_concat_quiet hmore hbit

/-- The first fifteen bits of a CRC are taken in silence. -/
theorem bitRun_crc_init {init : List Bool} (hstate : r.rx.state = .readCrc) (hbuffer : r.rx.buffer = 0#64)
    (hindex : r.rx.bitIndex = 0) (hinit : init.length + 1 = 16) :
    bitRun c pre init r es = (r.collected init (dmAfter pre init r.dm), es) := by
  refine bitRun_field (w := 16) (limit := 16) (by decide) (le_refl _) (fun bits b d h => ?_) hbuffer hindex (by omega)
  have hnot : bits.length + 1 ≠ 16 := by omega
  exact Eq.trans (framerBit_readCrc (r := r.collected bits d) c hstate) (readCrcBit_more c hnot)

/-- The sixteenth completes the frame with the CRC they spell. -/
theorem framerBit_crc_last {init : List Bool} {b : Bool} {d : Demod} (hstate : r.rx.state = .readCrc)
    (hinit : init.length + 1 = 16) : (r.collected init d).framerBit c b = (.freshHunt c r.rx.syncAttached,
      [.rxMessage r.rx.payload r.rx.length (BitVec.ofNat 16 (bitsNat (init ++ [b]))), .rxCancelTrigger,
        .rxSetRecurring (nominalSampleUs c)]) := by
  have hcrc : (shiftIn 16 (BitVec.ofNat 64 (bitsNat init)) b).setWidth 16 = BitVec.ofNat 16 (bitsNat (init ++ [b])) := by
    rw [shiftIn_bitsNat (by decide) (by omega)]
    apply BitVec.eq_of_toNat_eq
    rw [BitVec.toNat_setWidth, BitVec.toNat_ofNat, BitVec.toNat_ofNat]
    exact Nat.mod_mod_of_dvd _ (Nat.pow_dvd_pow 2 (by decide))
  rw [← hcrc]
  exact Eq.trans (framerBit_readCrc (r := r.collected init d) c hstate) (readCrcBit_done c hinit)

theorem ofNat_bitsMsb_crc (crc : BitVec 16) : BitVec.ofNat 16 (bitsNat (bitsMsb 16 crc)) = crc := by
  rw [bitsNat_bitsMsb, Nat.mod_eq_of_lt crc.isLt, BitVec.ofNat_toNat, BitVec.setWidth_eq]

theorem exists_crcBits (crc : BitVec 16) :
    ∃ init b, bitsMsb 16 crc = init ++ [b] ∧ init.length + 1 = 16 := by
  obtain ⟨init, b, hsplit⟩ := exists_concat (l := bitsMsb 16 crc) (by simp)
  have hlength := length_bitsMsb 16 crc
  rw [hsplit, List.length_append, List.length_singleton] at hlength
  exact ⟨init, b, hsplit, hlength⟩

/-- From the entry of READ_LENGTH to the entry of READ_CRC, in silence. -/
theorem bitRun_toCrc (payload : BitVec 64) {len : BitVec 7} (hlen : len.toNat ≤ 64)
    (hstate : r.rx.state = .readLength) (hbuffer : r.rx.buffer = 0#64) (hindex : r.rx.bitIndex = 0) :
    bitRun c pre (bitsMsb 7 len ++ bitsMsb len.toNat payload) r es =
      ({ r with rx := { r.rx with state := .readCrc, length := len,
                                  payload := BitVec.ofNat 64 (payload.toNat % 2 ^ len.toNat), buffer := 0#64,
                                  bitIndex := 0 },
                dm := dmAfter pre (bitsMsb 7 len ++ bitsMsb len.toNat payload) r.dm }, es) := by
  have hlenBits : bitsNat (bitsMsb 7 len) = len.toNat := by rw [bitsNat_bitsMsb, Nat.mod_eq_of_lt len.isLt]
  by_cases hzero : len = 0#7
  · subst hzero
    have hmod : payload.toNat % 2 ^ (0#7).toNat = 0 := Nat.mod_one _
    have hempty : bitsMsb (0#7).toNat payload = [] := rfl
    rw [hempty, List.append_nil, hmod]
    exact bitRun_length_zero hstate hbuffer hindex (length_bitsMsb 7 _) hlenBits
  · have hpos : 1 ≤ len.toNat := Nat.one_le_iff_ne_zero.mpr fun h => hzero (BitVec.eq_of_toNat_eq h)
    have hstored : BitVec.ofNat 7 (bitsNat (bitsMsb 7 len)) = len := by
      rw [hlenBits, BitVec.ofNat_toNat, BitVec.setWidth_eq]
    have hlength := bitRun_length (c := c) (pre := pre) (es := es) hstate hbuffer hindex (length_bitsMsb 7 len)
      (hlenBits.symm ▸ hpos) (hlenBits.symm ▸ hlen)
    rw [hstored] at hlength
    have hpayload := bitRun_payload (c := c) (pre := pre) (es := es) (bits := bitsMsb len.toNat payload)
      (r := { r with rx := { r.rx with state := .readPayload, length := len, buffer := 0#64, bitIndex := 0 },
                     dm := dmAfter pre (bitsMsb 7 len) r.dm })
      rfl rfl rfl (length_bitsMsb _ _) (by rwa [length_bitsMsb]) (by rwa [length_bitsMsb])
    rw [bitsNat_bitsMsb] at hpayload
    rw [bitRun_append hlength, hpayload, dmAfter, dmAfter, dmAfter, List.foldl_append]

/-- Settles O40: each field's bits spell its value, and the last bit of the CRC reports them. -/
theorem fieldBitsAreReassembled : Obligations.FieldBitsAreReassembled := by
  unfold Obligations.FieldBitsAreReassembled
  intro c r payload len crc hlen hstate hbuffer hindex
  obtain ⟨init, b, hsplit, hinit⟩ := exists_crcBits crc
  have hmessage := bitRun_concat (pre := fun _ d => d) (es := [])
    (bitRun_crc_init (c := c) (r := { r with rx := { r.rx with
      state := .readCrc, length := len, payload := BitVec.ofNat 64 (payload.toNat % 2 ^ len.toNat), buffer := 0#64, bitIndex := 0 } }) rfl rfl rfl hinit)
    (framerBit_crc_last (b := b) rfl hinit)
  have htoCrc := bitRun_toCrc (c := c) (pre := fun _ d => d) (es := []) payload hlen hstate hbuffer hindex
  rw [dmAfter_id] at htoCrc
  rw [← bitRun_id, bitRun_append htoCrc, hsplit, hmessage, ← hsplit, ofNat_bitsMsb_crc]
  rfl

end Sys2Proof.Machine
end

section
/-! The static receiver on an ideally sampled frame (42_receive_framer.md R250 to R268, 41_bit_demodulator.md R201): the
oversampled preamble fills the correlator exactly when it has been sampled, and from there every cell of `N` samples is
one recovered bit. -/

namespace Sys2Proof.Machine

/-! ## Strings of samples -/

/-- Successive RX_SAMPLEs at the receiver side, the first at `ts 0`: its end and every event, in order. -/
def sampleRun (c : Config) : List Level → (Nat → Micros) → Receiver → List Event → Receiver × List Event
  | [], _, r, es => (r, es)
  | l :: ls, ts, r, es =>
    let p := r.sample c l (ts 0)
    sampleRun c ls (fun i => ts (i + 1)) p.1 (es ++ p.2)

variable {c : Config} {r : Receiver} {es : List Event} {ts : Nat → Micros}

/-- The commands of a string of samples run as the receiver side does, with the transmitter and the configuration as
they were. -/
theorem runCommands_samples (ls : List Level) (ts : Nat → Micros) {s : State} {h : List Event}
    (hhistory : s.history = h ++ es) :
    ∃ t, runCommands (ls.mapIdx fun i b => Instr.rxSample b (ts i)) s = .next t ∧
      t.rcv = (sampleRun s.cfg ls ts s.rcv es).1 ∧ t.history = h ++ (sampleRun s.cfg ls ts s.rcv es).2 ∧
      t.tx = s.tx ∧ t.cfg = s.cfg := by
  induction ls generalizing s es ts with
  | nil => exact ⟨s, rfl, rfl, hhistory, rfl, rfl⟩
  | cons l ls ih =>
    have hstep := exec_rxSample s l (ts 0)
    have hnext : (s.fireRx.completeRx (s.rcv.sample s.cfg l (ts 0))).history =
        h ++ (es ++ (s.rcv.sample s.cfg l (ts 0)).2) := by
      rw [completeRx_history, fireRx_history, hhistory, List.append_assoc]
    obtain ⟨t, hrun, hrcv, hhist, htx, hcfg⟩ := ih (fun i => ts (i + 1)) hnext
    refine ⟨t, ?_, hrcv, hhist, htx, hcfg⟩
    rw [List.mapIdx_cons, runCommands_cons hstep]
    exact hrun

/-- A run that goes on where another ended. -/
theorem sampleRun_append {ls ls' : List Level} {r' : Receiver} {es' : List Event}
    (h : sampleRun c ls ts r es = (r', es')) :
    sampleRun c (ls ++ ls') ts r es = sampleRun c ls' (fun i => ts (i + ls.length)) r' es' := by
  induction ls generalizing r es ts with
  | nil =>
    cases h
    rfl
  | cons l ls ih =>
    rw [List.cons_append, sampleRun, ih h, List.length_cons]
    simp only [Nat.add_assoc]

/-- One more sample. -/
theorem sampleRun_concat {ls : List Level} {l : Level} {r' r'' : Receiver} {es' es'' : List Event}
    (h : sampleRun c ls ts r es = (r', es')) (hsample : ∀ t, r'.sample c l t = (r'', es'')) :
    sampleRun c (ls ++ [l]) ts r es = (r'', es' ++ es'') := by
  rw [sampleRun_append h, sampleRun, hsample]
  rfl

/-! ## The hunt -/

/-- The pattern begins with a high sample, so it spells a number of full width. -/
theorem reference_ge {ls : List Level} (h : ls.length < c.params.k * c.params.n) : bitsNat ls < reference c := by
  obtain ⟨hn, -, -, -, hk, -⟩ := Config.facts c
  obtain ⟨n, hn'⟩ : ∃ n, c.params.n = n + 1 := ⟨c.params.n - 1, by omega⟩
  obtain ⟨k, hk'⟩ : ∃ k, c.params.k = k + 1 := ⟨c.params.k - 1, by omega⟩
  obtain ⟨rest, hrest⟩ : ∃ rest, oversampledPreamble c = true :: rest := by
    rw [oversampledPreamble, hn', hk', List.range_succ_eq_map, List.flatMap_cons]
    exact ⟨_, rfl⟩
  have hlength := length_oversampledPreamble c
  rw [hrest, List.length_cons] at hlength
  have hpow : 2 ^ ls.length ≤ 2 ^ rest.length := Nat.pow_le_pow_right (by decide) (by omega)
  have hlt := bitsNat_lt ls
  rw [reference_eq, hrest, bitsNat_cons, bitNat_true]
  omega

/-- A fresh hunt that has shifted some samples in. -/
def Receiver.hunted (r : Receiver) (ls : List Level) : Receiver := { r with cr := { reg := bitsNat ls } }

/-- Fewer samples than the correlator is wide never match: the reference is of full width. -/
theorem sampleRun_hunt {ls : List Level} (hstate : r.rx.state = .syncHunt) (hdetached : r.rx.syncAttached = false)
    (hcr : r.cr = .reset) (h : ls.length < c.params.k * c.params.n) :
    sampleRun c ls ts r es = (r.hunted ls, es) := by
  induction ls using List.reverseRecOn with
  | nil =>
    obtain ⟨_, _, cr, _⟩ := r
    obtain rfl : cr = .reset := hcr
    rfl
  | append_singleton ls l ih =>
    have hlt := bitsNat_lt (ls ++ [l])
    have hwidth : 2 ^ (ls ++ [l]).length ≤ 2 ^ correlatorWidth c := Nat.pow_le_pow_right (by decide) h.le
    have hshift : shiftInNat (correlatorWidth c) (bitsNat ls) l = bitsNat (ls ++ [l]) := by
      rw [bitsNat_concat] at hlt ⊢
      exact Nat.mod_eq_of_lt (by omega)
    have hmiss : shiftInNat (correlatorWidth c) (r.hunted ls).cr.reg l ≠ reference c :=
      hshift.trans_ne (reference_ge h).ne
    have hprev := ih (by rw [List.length_append, List.length_singleton] at h; omega)
    rw [sampleRun_concat hprev fun t =>
      Eq.trans (sample_static (r := r.hunted ls) c hstate hdetached) (staticCorrelate_miss c hmiss)]
    simp only [Receiver.hunted, hshift, List.append_nil]

/-- The oversampled preamble is matched at its last sample. -/
theorem sampleRun_preamble (hstate : r.rx.state = .syncHunt) (hdetached : r.rx.syncAttached = false)
    (hcr : r.cr = .reset) :
    sampleRun c (oversampledPreamble c) ts r es =
      ({ r with rx := { r.rx with state := .waitStart, buffer := 0#64, bitIndex := 0 }, dm := .reset, cr := .reset },
        es) := by
  have hlength := length_oversampledPreamble c
  have hwidth := one_le_correlatorWidth c
  obtain ⟨init, l, hsplit⟩ := exists_concat (l := oversampledPreamble c) (by rw [hlength]; exact hwidth)
  rw [hsplit, List.length_append, List.length_singleton] at hlength
  have hlt := bitsNat_lt (oversampledPreamble c)
  rw [length_oversampledPreamble] at hlt
  have hmatch : shiftInNat (correlatorWidth c) (r.hunted init).cr.reg l = reference c := by
    rw [reference_eq]
    rw [hsplit, bitsNat_concat] at hlt ⊢
    exact Nat.mod_eq_of_lt hlt
  have hprev := sampleRun_hunt (c := c) (ts := ts) (es := es) (ls := init) hstate hdetached hcr (by omega)
  rw [hsplit, sampleRun_concat hprev fun t =>
    Eq.trans (sample_static (r := r.hunted init) c hstate hdetached) (staticCorrelate_match c hmatch), List.append_nil]
  rfl

/-! ## Bit cells -/

/-- Samples within a cell are handed to the demodulator in silence. -/
theorem sampleRun_inner {ls : List Level} (hframe : r.rx.state.inFrame = true)
    (h : r.dm.slot + ls.length < c.params.n) :
    sampleRun c ls ts r es = ({ r with dm := (demodRun c ls r.dm .none).1 }, es) := by
  induction ls generalizing r ts with
  | nil => rfl
  | cons l ls ih =>
    rw [List.length_cons] at h
    obtain ⟨d, hd, hslot⟩ : ∃ d, r.dm.sample c l = (d, .none) ∧ d.slot = r.dm.slot + 1 := by
      by_cases hfirst : r.dm.slot = 0
      · exact ⟨_, sample_firstSlot l hfirst, by simp [hfirst]⟩
      · exact ⟨_, sample_innerSlot l (by omega) (by omega), rfl⟩
    have hsample : r.sample c l (ts 0) = ({ r with dm := d }, []) :=
      (sample_frame c hframe l (ts 0)).trans (frameSample_of_none c hd)
    rw [sampleRun, demodRun, hsample, hd, List.append_nil]
    exact ih (r := { r with dm := d }) hframe (by simp only [hslot]; omega)

/-- A cell of `N` equal samples is one recovered bit. -/
theorem sampleRun_cell (b last : Bool) (hframe : r.rx.state.inFrame = true) (hdm : r.dm = .decided last) :
    sampleRun c (List.replicate c.params.n b) ts r es =
      ((Receiver.framerBit c { r with dm := .decided b } b).1,
        es ++ (Receiver.framerBit c { r with dm := .decided b } b).2) := by
  obtain ⟨hn, -⟩ := Config.facts c
  obtain ⟨m, hm⟩ : ∃ m, c.params.n = m + 2 := ⟨c.params.n - 2, by omega⟩
  have hcell : List.replicate c.params.n b = (b :: List.replicate m b) ++ [b] := by
    rw [hm, List.replicate_succ, List.replicate_succ', List.cons_append]
  have hlength : (List.replicate m b).length + 2 = c.params.n := by simp [hm]
  have hinner : demodRun c (b :: List.replicate m b) (.decided last) .none =
      (Demod.beforeLast (List.replicate m b) last, .none) := by
    rw [demodRun, sample_firstSlot b rfl, demodRun_inner (le_refl 1) (by simp [hm]; omega)]
    simp [Demod.beforeLast, Demod.decided, Nat.add_comm]
  have hprev := sampleRun_inner (c := c) (ts := ts) (es := es) (ls := b :: List.replicate m b) hframe
    (by rw [hdm, hm]; simp [Demod.decided])
  rw [hdm, hinner] at hprev
  have hdecides : (Demod.beforeLast (List.replicate m b) last).decides c b := by
    refine decides_of_count (inv_beforeLast hlength last) (by simp [Demod.beforeLast, hm]) ?_
    rw [count_beforeLast, List.count_replicate_self, threshold]
    omega
  rw [hcell]
  exact sampleRun_concat hprev fun t => sample_of_decides c hframe hdecides

/-- What a cell leaves in the demodulator. -/
def cellDecides (b : Bool) (_ : Demod) : Demod := .decided b

/-- A receiver that goes on with its frame at the start of a cell. -/
def Receiver.atCell (r : Receiver) : Prop := r.rx.state.inFrame = true ∧ ∃ last, r.dm = .decided last

/-- In a frame state a recovered bit leaves the receiver at the start of the next cell, or ends the frame with a
report. -/
theorem framerBit_atCell (b : Bool) (hframe : r.rx.state.inFrame = true) (hdm : r.dm = .decided b) :
    (r.framerBit c b).1.atCell ∨ (r.framerBit c b).2 ≠ [] := by
  have hat : ∀ r' : Receiver, r'.rx.state.inFrame = true → r'.dm = r.dm → r'.atCell :=
    fun r' hframe' hdm' => ⟨hframe', b, hdm'.trans hdm⟩
  cases framerBit_step c r b with
  | ignored h | waitMore _ _ h | lengthMore _ _ h | payloadMore _ _ h | crcMore _ _ h =>
    exact .inl (by rw [h]; exact hat _ hframe rfl)
  | waitMatch _ h | lengthZero _ h | lengthStores _ _ _ h | payloadDone _ _ h =>
    exact .inl (by rw [h]; exact hat _ rfl rfl)
  | fault _ h | message _ _ h => exact .inr (by simp [h])

/-- Cells whose bits report nothing run as the bits do. -/
theorem sampleRun_cells {bits : List Bool} {r' : Receiver} (hat : r.atCell)
    (h : bitRun c cellDecides bits r es = (r', es)) :
    sampleRun c (bits.flatMap fun b => List.replicate c.params.n b) ts r es = (r', es) ∧ r'.atCell := by
  induction bits generalizing r ts with
  | nil =>
    cases h
    exact ⟨rfl, hat⟩
  | cons b bits ih =>
    obtain ⟨hframe, last, hdm⟩ := hat
    obtain ⟨hquiet, hrest⟩ := bitRun_quiet_cons h
    have hcell := sampleRun_cell (c := c) (ts := ts) (es := es) b last hframe hdm
    have hnext := (framerBit_atCell (c := c) (r := { r with dm := .decided b }) b hframe rfl).resolve_right
      (not_not_intro hquiet)
    have hquiet' : (Receiver.framerBit c { r with dm := .decided b } b).2 = [] := hquiet
    rw [hquiet', List.append_nil] at hcell
    obtain ⟨hrun, hat'⟩ := ih (ts := fun i => ts (i + (List.replicate c.params.n b).length)) hnext hrest
    refine ⟨?_, hat'⟩
    rw [List.flatMap_cons, sampleRun_append hcell]
    exact hrun

/-- After such cells, the cell of one more bit hands it to the framer. -/
theorem sampleRun_cells_concat {bits : List Bool} {r' : Receiver} (b : Bool) (hat : r.atCell)
    (h : bitRun c cellDecides bits r es = (r', es)) :
    sampleRun c ((bits ++ [b]).flatMap fun b => List.replicate c.params.n b) ts r es =
      ((Receiver.framerBit c { r' with dm := .decided b } b).1,
        es ++ (Receiver.framerBit c { r' with dm := .decided b } b).2) := by
  obtain ⟨hcells, hframe, last, hdm⟩ := sampleRun_cells (ts := ts) hat h
  rw [List.flatMap_append, sampleRun_append hcells, List.flatMap_singleton]
  exact sampleRun_cell b last hframe hdm

/-! ## The bits of a frame before its length -/

/-- Preamble and marker. -/
def frameStart : List Bool := bitsMsb preambleLen preambleValue ++ bitsMsb markerLen markerValue

theorem length_frameStart : frameStart.length = 48 := by decide

theorem frameBits_eq (payload : BitVec 64) (len : BitVec 7) (crc : BitVec 16) :
    frameBits payload len crc =
      frameStart ++ ((bitsMsb 7 len ++ bitsMsb len.toNat payload) ++ bitsMsb 16 crc) := by
  simp [frameBits, frameStart, lengthBits, crcBits]

/-- The first `K` bits of a frame, each sampled `N` times, are the pattern of the correlator. -/
theorem oversampledPreamble_eq (c : Config) :
    ((frameStart.take c.params.k).flatMap fun b => List.replicate c.params.n b) = oversampledPreamble c := by
  obtain ⟨-, -, -, -, -, hk, -⟩ := Config.facts c
  have htake : frameStart.take c.params.k = (List.range c.params.k).map (fun i => decide (i % 2 = 0)) := by
    rw [frameStart, bitsMsb_preamble, List.take_append_of_le_length (by simpa using hk), ← List.map_take,
      List.take_range, Nat.min_eq_left hk]
  rw [htake, List.flatMap_map, oversampledPreamble]

/-- Before the marker no two zeros stand together. -/
theorem frameStart_no_two_zeros :
    ∀ p < 39, ¬(frameStart[p]? = some false ∧ frameStart[p + 1]? = some false) := by decide

/-- Wherever a search begins in the preamble, the marker ends with the last bit of the marker and not before: its two
zeros together stand nowhere earlier. -/
theorem markerEndsAt_frameStart_drop {k m : Nat} (h : MarkerEndsAt (frameStart.drop k) m) : 48 ≤ k + m := by
  obtain ⟨hlong, hmarker⟩ := h
  have hbit : ∀ j < 12, frameStart[k + (m - 12 + j)]? = markerPattern[j]? := by
    intro j hj
    rw [← hmarker, List.getElem?_drop, List.getElem?_take_of_lt (by omega), List.getElem?_drop]
  by_contra hlt
  refine frameStart_no_two_zeros (k + (m - 12 + 3)) (by omega) ⟨hbit 3 (by decide), ?_⟩
  exact hbit 4 (by decide)

theorem markerEndsAt_end {k : Nat} (hk : k ≤ 36) :
    MarkerEndsAt (frameStart.drop k) (frameStart.drop k).length := by
  have hlength : (frameStart.drop k).length = 48 - k := by rw [List.length_drop, length_frameStart]
  refine ⟨by omega, ?_⟩
  have hmarker : frameStart.drop 36 = markerPattern := by decide
  have hindex : k + (48 - k - 12) = 36 := by omega
  rw [List.take_length, hlength, List.drop_drop, hindex, hmarker]

/-- The rest of the preamble and the marker lead from the entry of WAIT_START to READ_LENGTH. -/
theorem bitRun_frameStart {pre : Bool → Demod → Demod} {k : Nat} (hk : k ≤ 36) (hstate : r.rx.state = .waitStart)
    (hbuffer : r.rx.buffer = 0#64) (hindex : r.rx.bitIndex = 0) :
    bitRun c pre (frameStart.drop k) r es =
      ({ r with rx := { r.rx with state := .readLength, buffer := 0#64, bitIndex := 0 },
                dm := dmAfter pre (frameStart.drop k) r.dm }, es) := by
  have hlength : (frameStart.drop k).length = 48 - k := by rw [List.length_drop, length_frameStart]
  refine bitRun_marker hstate hbuffer hindex (by omega) (fun m hm hends => ?_) (markerEndsAt_end hk)
  have hlate := markerEndsAt_frameStart_drop hends
  omega

/-! ## The whole frame -/

theorem sampleRun_frame (c : Config) (payload : BitVec 64) {len : BitVec 7} (crc : BitVec 16) (ts : Nat → Micros)
    (hlen : len.toNat ≤ 64) :
    sampleRun c ((frameBits payload len crc).flatMap fun b => List.replicate c.params.n b) ts (.freshHunt c false) [] =
      (.freshHunt c false,
        [.rxMessage (BitVec.ofNat 64 (payload.toNat % 2 ^ len.toNat)) len crc, .rxCancelTrigger,
          .rxSetRecurring (nominalSampleUs c)]) := by
  obtain ⟨-, -, -, -, -, hk, -⟩ := Config.facts c
  obtain ⟨init, b, hsplit, hinit⟩ := exists_crcBits crc
  have hbits : frameBits payload len crc = frameStart.take c.params.k ++
      ((frameStart.drop c.params.k ++ (bitsMsb 7 len ++ bitsMsb len.toNat payload) ++ init) ++ [b]) := by
    rw [frameBits_eq, hsplit]
    conv_lhs => rw [← List.take_append_drop c.params.k frameStart]
    simp only [List.append_assoc]
  have hpreamble := sampleRun_preamble (c := c) (r := .freshHunt c false) (ts := ts) (es := []) rfl rfl rfl
  have hmarker := bitRun_frameStart (c := c) (pre := cellDecides) (es := []) (k := c.params.k)
    (r := { Receiver.freshHunt c false with
      rx := { (Receiver.freshHunt c false).rx with state := .waitStart, buffer := 0#64, bitIndex := 0 } })
    hk rfl rfl rfl
  have htoCrc := (bitRun_append hmarker).trans (bitRun_toCrc payload hlen rfl rfl rfl)
  have hquiet := (bitRun_append htoCrc).trans (bitRun_crc_init rfl rfl rfl hinit)
  have hmessage := framerBit_crc_last (c := c) (b := b) (d := .decided b)
    (r := { Receiver.freshHunt c false with rx := { (Receiver.freshHunt c false).rx with
      state := .readCrc, length := len, payload := BitVec.ofNat 64 (payload.toNat % 2 ^ len.toNat) } }) rfl hinit
  rw [← hsplit, ofNat_bitsMsb_crc] at hmessage
  rw [hbits, List.flatMap_append, oversampledPreamble_eq, sampleRun_append hpreamble]
  refine (sampleRun_cells_concat b ⟨rfl, false, rfl⟩ hquiet).trans ?_
  exact congrArg (fun p : Receiver × List Event => (p.1, [] ++ p.2)) hmessage

/-- Settles O41: the commands run as the receiver side does, and the samples of the frame are the pattern of the
correlator and a cell for each bit after it. -/
theorem staticReceiverDecodesAnIdealFrame : Obligations.StaticReceiverDecodesAnIdealFrame := by
  unfold Obligations.StaticReceiverDecodesAnIdealFrame
  intro s payload len crc ts hlen hfresh
  obtain ⟨t, hrun, hrcv, hhistory, htx, hcfg⟩ := runCommands_samples
    ((frameBits payload len crc).flatMap fun b => List.replicate s.cfg.params.n b) ts (s := s) (h := s.history) (es := [])
    (List.append_nil _).symm
  rw [hfresh, sampleRun_frame s.cfg payload crc ts hlen] at hrcv hhistory
  exact ⟨t, hrun, hhistory, hrcv.trans hfresh.symm, htx, hcfg⟩

end Sys2Proof.Machine
end

section
/-! The synchronizer on a clean alternating preamble (43_clock_synchronizer.md R303 to R313, R325): the first high run is
waited through, the low run after it gives the expected count, and every later run of that length is one processed
half-bit, up to the sample that ends the last. -/

namespace Sys2Proof.Machine

variable {c : Config} {p ts t0 : Micros} {y : SyncSession} {last : SyncResult} {h : Nat}

/-! ## Strings of samples -/

/-- A run that goes on where another ended. -/
theorem syncRun_append {ls ls' : List Level} {y' : SyncSession} {last' : SyncResult}
    (hrun : syncRun c p ls ts y last = (y', last')) :
    syncRun c p (ls ++ ls') ts y last = syncRun c p ls' (ts + BitVec.ofNat 32 ls.length * p) y' last' := by
  induction ls generalizing ts y last with
  | nil =>
    cases hrun
    simp
  | cons l ls ih =>
    have htime : ts + p + BitVec.ofNat 32 ls.length * p = ts + BitVec.ofNat 32 (l :: ls).length * p := by
      rw [List.length_cons, BitVec.ofNat_add, BitVec.add_mul, BitVec.one_mul, BitVec.add_assoc,
        BitVec.add_comm (BitVec.ofNat 32 ls.length * p)]
    rw [List.cons_append, syncRun, ih hrun, htime]

/-- A session in WAIT_SYNC that has counted `n` highs. -/
def SyncSession.waiting (n : Nat) : SyncSession := { SyncSession.reset with waitHigh := n }

/-- The highs of the first run are counted up to SL. -/
theorem syncRun_waiting (n m : Nat) (hm : m ≤ c.params.sl) :
    syncRun c p (List.replicate n true) ts (.waiting m) .none = (.waiting (min (m + n) c.params.sl), .none) := by
  induction n generalizing ts m with
  | zero => exact Prod.ext (congrArg SyncSession.waiting (Nat.min_eq_left hm).symm) rfl
  | succ n ih =>
    have hsample : (SyncSession.waiting m).sample c true ts = (.waiting (min (m + 1) c.params.sl), .none) :=
      (syncSample_waitSync c rfl).trans (congrArg (·, SyncResult.none) (wait_high c _))
    have hcount : min (min (m + 1) c.params.sl + n) c.params.sl = min (m + (n + 1)) c.params.sl := by omega
    rw [List.replicate_succ, syncRun, hsample, ih _ (Nat.min_le_right _ _), hcount]

/-- Samples of the run's level within the window are counted. -/
theorem syncRun_counted {n : Nat} (hstate : y.state = .startSync ∨ y.state = .sync) (hfit : y.matched + n ≤ y.hi c) :
    syncRun c p (List.replicate n y.runLevel) ts y .none = ({ y with matched := y.matched + n }, .none) := by
  induction n generalizing ts y with
  | zero => rfl
  | succ n ih =>
    have hsample := (syncSample_collecting (ts := ts) c hstate).trans
      (collectRun_counted c rfl (by omega : y.matched + 1 ≤ y.hi c))
    have hrest := ih (ts := ts + p) (y := { y with matched := y.matched + 1 }) hstate
      (by rw [Nat.add_assoc, Nat.add_comm 1]; exact hfit)
    rw [List.replicate_succ, syncRun, hsample, hrest, Nat.add_assoc, Nat.add_comm 1]

/-- A whole run whose first sample opens it. -/
theorem syncRun_opened {y' : SyncSession} {b : Level} (hopens : y.sample c b ts = (y', .none))
    (hstate : y'.state = .startSync ∨ y'.state = .sync) (hlevel : y'.runLevel = b) (hfirst : y'.matched = 1)
    (hpos : 1 ≤ h) (hfit : h ≤ y'.hi c) :
    syncRun c p (List.replicate h b) ts y last = ({ y' with matched := h }, .none) := by
  obtain ⟨n, rfl⟩ : ∃ n, h = 1 + n := ⟨h - 1, by omega⟩
  subst hlevel
  have hrest := syncRun_counted (p := p) (ts := ts + p) (n := n) hstate (by rwa [hfirst])
  rw [hfirst] at hrest
  rw [Nat.add_comm, List.replicate_succ, syncRun, hopens, hrest, Nat.add_comm]

/-! ## The runs of a preamble -/

/-- `n` alternating runs of `h` samples, the first high. -/
def halfBits (h n : Nat) : List Level := (List.range n).flatMap fun i => List.replicate h (decide (i % 2 = 0))

theorem halfBits_succ (h n : Nat) : halfBits h (n + 1) = halfBits h n ++ List.replicate h (decide (n % 2 = 0)) := by
  simp [halfBits, List.range_succ]

theorem length_halfBits (h n : Nat) : (halfBits h n).length = n * h := by
  simp [halfBits]

/-- The session when the first low run has come whole. -/
def SyncSession.learning (h : Nat) : SyncSession := { SyncSession.reset with state := .startSync, matched := h }

/-- The session when the first low run has given the expected count `h` and, after it, `j` runs are processed and the next
has come whole. -/
def SyncSession.timing (h : Nat) (t0 : Micros) (j : Nat) : SyncSession where
  state := if j = 0 then .startSync else .sync
  waitHigh := 0
  runLevel := decide (j % 2 = 0)
  matched := h
  wrong := 0
  expected := h
  expectedValid := true
  processed := j
  t0 := t0
  detected := 0#32

theorem timing_collecting (h : Nat) (t0 : Micros) (j : Nat) :
    (SyncSession.timing h t0 j).state = .startSync ∨ (SyncSession.timing h t0 j).state = .sync := by
  rw [SyncSession.timing]
  split
  · exact .inl rfl
  · exact .inr rfl

theorem ne_parity_succ (j : Nat) : decide ((j + 1) % 2 = 0) ≠ decide (j % 2 = 0) := by
  rw [Ne, decide_eq_decide]
  omega

/-- The sample after a whole run completes it. -/
theorem timing_completes (h : Nat) (t0 : Micros) (j : Nat) :
    (SyncSession.timing h t0 j).sample c (decide ((j + 1) % 2 = 0)) ts =
      (SyncSession.timing h t0 j).runComplete c (decide ((j + 1) % 2 = 0)) ts h := by
  have hlo : (SyncSession.timing h t0 j).lo c ≤ ((SyncSession.timing h t0 j).matched : Int) :=
    (lo_le_iff c _).mpr (Nat.le_add_right _ _)
  exact (syncSample_collecting c (timing_collecting h t0 j)).trans (collectRun_complete c (ne_parity_succ j) hlo)

/-- A run before the last is one more processed half-bit. -/
theorem syncRun_timing {j : Nat} (hpos : 1 ≤ h) (hj : j + 1 ≠ c.params.syncLength) :
    syncRun c p (List.replicate h (decide ((j + 1) % 2 = 0))) ts (.timing h t0 j) last =
      (.timing h t0 (j + 1), .none) :=
  syncRun_opened ((timing_completes h t0 j).trans (runComplete_later c rfl hj h)) (.inr rfl) rfl rfl hpos
    (Nat.le_add_right _ _)

/-- The first three runs: the highs waited through, the low run that gives the expected count, and the high run whose
first sample starts the timing. -/
theorem syncRun_first (hsl : c.params.sl ≤ h) (hsh : h ≤ c.params.sh) :
    syncRun c p (halfBits h 3) ts .reset .none = (.timing h (ts + BitVec.ofNat 32 (2 * h) * p) 0, .none) := by
  obtain ⟨-, -, -, -, -, -, hpos, -⟩ := Config.facts c
  have hwait : syncRun c p (halfBits h 1) ts .reset .none = (.waiting c.params.sl, .none) := by
    have hrun := syncRun_waiting (c := c) (p := p) (ts := ts) h 0 (Nat.zero_le _)
    rw [Nat.zero_add, Nat.min_eq_right hsl] at hrun
    have hone : halfBits h 1 = List.replicate h true := by simp [halfBits]
    rw [hone]
    exact hrun
  have hlow : ∀ t, syncRun c p (List.replicate h false) t (.waiting c.params.sl) .none = 
      (.learning h, .none) := fun t =>
    syncRun_opened ((syncSample_waitSync c rfl).trans (congrArg (·, SyncResult.none) (wait_low_opens c (le_refl _))))
      (.inl rfl) rfl rfl (hpos.trans hsl) hsh
  have hlo : (SyncSession.learning h).lo c ≤ ((SyncSession.learning h).matched : Int) := (lo_le_iff c _).mpr hsl
  have hhigh : ∀ t, syncRun c p (List.replicate h true) t (.learning h) .none = (.timing h t 0, .none) := fun t =>
    syncRun_opened ((syncSample_collecting c (.inl rfl)).trans ((collectRun_complete c Bool.noConfusion hlo).trans
      (runComplete_first c rfl rfl h))) (.inl rfl) rfl rfl (hpos.trans hsl) (Nat.le_add_right _ _)
  rw [halfBits_succ, syncRun_append ((halfBits_succ h 1 ▸ syncRun_append hwait).trans (hlow _)), length_halfBits]
  exact hhigh _

/-- Every further run up to the last. -/
theorem syncRun_runs {j : Nat} (hsl : c.params.sl ≤ h) (hsh : h ≤ c.params.sh) (hj : j < c.params.syncLength) :
    syncRun c p (halfBits h (j + 3)) ts .reset .none = (.timing h (ts + BitVec.ofNat 32 (2 * h) * p) j, .none) := by
  obtain ⟨-, -, -, -, -, -, hpos, -⟩ := Config.facts c
  induction j with
  | zero => exact syncRun_first hsl hsh
  | succ j ih =>
    have hparity : decide ((j + 3) % 2 = 0) = decide ((j + 1) % 2 = 0) := by rw [← Nat.add_mod_right (j + 1) 2]
    rw [halfBits_succ, syncRun_append (ih (by omega)), hparity]
    exact syncRun_timing (hpos.trans hsl) hj.ne

/-! ## The lock -/

/-- The estimate is the length of a run times `M` when the run begins a whole number of runs after the timing. -/
theorem estimate_timing {j : Nat} (hpos : 1 ≤ c.params.syncLength)
    (hwrap : c.params.syncLength * (h * p.toNat) < 2 ^ 32) :
    SyncSession.estimate c { SyncSession.timing h t0 j with processed := c.params.syncLength }
      (t0 + BitVec.ofNat 32 (c.params.syncLength * h) * p) = h * p.toNat * c.params.m := by
  have helapsed : (BitVec.ofNat 32 (c.params.syncLength * h) * p).toNat = c.params.syncLength * (h * p.toNat) := by
    rw [BitVec.toNat_mul, BitVec.toNat_ofNat, Nat.mod_mul_mod, Nat.mul_assoc, Nat.mod_eq_of_lt hwrap]
  have hdiff : (t0 + BitVec.ofNat 32 (c.params.syncLength * h) * p) - t0 =
      BitVec.ofNat 32 (c.params.syncLength * h) * p := by bv_omega
  rw [SyncSession.estimate, SyncSession.timing, hdiff, helapsed, Nat.mul_assoc, Nat.mul_div_cancel_left _ hpos]

/-- The sample that ends the last run locks on the exact period when the rate window holds it. -/
theorem timing_locks {j : Nat} (hj : j + 1 = c.params.syncLength) (hwrap : c.params.syncLength * (h * p.toNat) < 2 ^ 32)
    (hlo : c.params.rateLo ≤ h * p.toNat * c.params.m) (hhi : h * p.toNat * c.params.m ≤ c.params.rateHi) :
    (SyncSession.timing h t0 j).sample c true (t0 + BitVec.ofNat 32 (c.params.syncLength * h) * p) =
      ({ SyncSession.timing h t0 j with
          state := .done, processed := c.params.syncLength, detected := micros (h * p.toNat * c.params.m) },
        .done (micros (h * p.toNat * c.params.m))) := by
  obtain ⟨-, -, -, -, -, -, -, -, -, heven, -⟩ := Config.facts c
  have hlevel : decide ((j + 1) % 2 = 0) = true := by simp [hj, heven]
  have hestimate := estimate_timing (t0 := t0) (j := j) (by omega) hwrap
  rw [← hlevel, timing_completes, runComplete_last c rfl hj,
    finish_locks c (hestimate.symm ▸ hlo) (hestimate.symm ▸ hhi), hestimate]

/-- Settles O51: the runs are processed one by one, and the sample after the last finds them to have lasted
`SYNC_LENGTH * h * p` microseconds. -/
theorem aCleanPreambleIsLocked : Obligations.ACleanPreambleIsLocked := by
  unfold Obligations.ACleanPreambleIsLocked
  intro c h p ts hsl hsh hwrap hlo hhi
  obtain ⟨-, -, -, -, -, -, -, -, htwo, -⟩ := Config.facts c
  obtain ⟨j, hj⟩ : ∃ j, c.params.syncLength = j + 1 := ⟨c.params.syncLength - 1, by omega⟩
  have hruns := syncRun_runs (p := p) (ts := ts) hsl hsh (by omega : j < c.params.syncLength)
  have htime : ts + BitVec.ofNat 32 (halfBits h (j + 3)).length * p =
      ts + BitVec.ofNat 32 (2 * h) * p + BitVec.ofNat 32 (c.params.syncLength * h) * p := by
    rw [length_halfBits, BitVec.add_assoc, ← BitVec.add_mul, ← BitVec.ofNat_add, ← Nat.add_mul, hj,
      Nat.add_comm 2 (j + 1)]
  have hlast := timing_locks (t0 := ts + BitVec.ofNat 32 (2 * h) * p) hj.symm hwrap hlo hhi
  refine ⟨_, Eq.trans ?_ hlast, rfl, rfl⟩
  rw [hj]
  refine (syncRun_append hruns).trans ?_
  rw [htime, hj]
  rfl

end Sys2Proof.Machine
end
